-- ==== Sys2Proof/Word.lean ====
section
/-! DEFINITION. The words of the block: sample codes, register words, and physical values (R7). -/

namespace Sys2Proof

/-- A sample code as the model carries it: the 16 bits of the port's `CODE` field. The block uses the low
`N` of them (R71, R78); the ones above are 0 in a well-formed code. -/
abbrev Code := BitVec 16

/-- A register word of the bus (R51). -/
abbrev Word := BitVec 32

/-- A physical value: voltage, filter input, filter output, coefficient. Exact rationals (R7, D5). -/
abbrev Val := Rat

end Sys2Proof
end

