-- ==== Sys2Proof/Config.lean ====
section
/-! DEFINITION. The implementation parameters of R4, their validity (R5), the reference instance, and the
values the spec leaves open, as constants without a body. -/

namespace Sys2Proof

/-- A total function of the operands, `MAX_CODE` and `VREF` (R148), written out as data, so that a configuration can carry
it: rational arithmetic, rounding down, choice by comparison, and accumulation over the taps. `NumExpr.eval` is its meaning.
DESIGN CHOICE, log 16. -/
inductive NumExpr where
  /-- A constant of the format: a step of the grid, a bound, an entry of a table. -/
  | const (v : Val)
  /-- The operand of `SCALE_FN`, as a number. -/
  | code
  /-- `MAX_CODE`. -/
  | maxCode
  /-- `VREF`. -/
  | vref
  /-- `c[k]` of `DOT_FN(c, w)`. -/
  | coeff (k : Nat)
  /-- `w[k]` of `DOT_FN(c, w)`. -/
  | window (k : Nat)
  /-- Inside `foldTaps`: what is accumulated so far. -/
  | acc
  /-- Inside `foldTaps`: `c[k]` of the tap `k` it has come to. -/
  | tapCoeff
  /-- Inside `foldTaps`: `w[k]` of the tap `k` it has come to. -/
  | tapWindow
  | add (a b : NumExpr)
  | sub (a b : NumExpr)
  | mul (a b : NumExpr)
  | div (a b : NumExpr)
  /-- The greatest integer that is not above `a`: every rounding of a fixed grid is made of it. -/
  | floor (a : NumExpr)
  /-- `x` where `a ≤ b`, else `y`: saturation, tables, rounding by cases. -/
  | ifLe (a b x y : NumExpr)
  /-- `acc` starts as `init` and becomes `next` once for each tap, from `k = 0` on. -/
  | foldTaps (init next : NumExpr)
  deriving DecidableEq, Repr

/-- The parameter `NUMERICS` (R4, R148): the pair (`SCALE_FN`, `DOT_FN`), as data (log 16). -/
inductive Numerics where
  /-- The default: exact rational arithmetic. -/
  | exact
  /-- The pair a configuration gives. -/
  | given (scale dot : NumExpr)
  /-- A pair of which nothing is known but a number for it: `Config.finiteScale` and `Config.finiteDot`. -/
  | finite (fmt : Nat)
  deriving DecidableEq, Repr

/-- A positive value: the legal range of `TRIGGER_FREQ` (R4). -/
abbrev PosVal := { v : Val // 0 < v }

/-- The parameter `RANGE_POLICY` (R173): what `COMPUTE` does with a code above `MAX_CODE`. -/
inductive RangePolicy where
  /-- Raise `CODE_RANGE` (the default for a model). -/
  | fault
  /-- Set `RANGE` and scale by the formula, as the hardware does. -/
  | compute
  deriving DecidableEq, Repr

/-- The parameters of R4 and `BASE_ADDR` of R55. They are fixed for the life of an instance (R6). -/
structure Config where
  /-- `L`, the capacity of each sample buffer. -/
  bufLen : Nat
  /-- `T`, the number of FIR taps. -/
  taps : Nat
  /-- `COEFF[0..T-1]`; `COEFF[k]` weights `input[n-k]`. -/
  coeff : List Val
  /-- `N`, the width of a code. -/
  codeWidth : Nat
  /-- `MAX_CODE`, the code that maps to `VREF`. -/
  maxCode : Nat
  /-- `VREF`. -/
  vref : Val
  /-- `TRIGGER_FREQ`, a positive rational; no rule depends on it. R5 does not list it, so its type holds its range. -/
  triggerFreq : PosVal
  /-- `NUMERICS`. -/
  numerics : Numerics
  /-- `RANGE_POLICY`. -/
  rangePolicy : RangePolicy
  /-- `VAL_FMT`, the number format on the record port, known by its number alone. -/
  valFmt : Nat
  /-- `VAL_W`, the width of a value on the record port. -/
  valWidth : Nat
  /-- `BASE_ADDR` in the integrating platform; no rule depends on it (R55). -/
  baseAddr : Nat
  deriving DecidableEq, Repr

/-- The conditions of R5, by the parameter each is about. -/
inductive ConfigCondition where
  /-- `1 ≤ L ≤ 65535`. -/
  | bufLen
  /-- `1 ≤ T ≤ 4095`. -/
  | taps
  /-- `COEFF` has exactly `T` entries. -/
  | coeffLength
  /-- `1 ≤ N ≤ 16`. -/
  | codeWidth
  /-- `1 ≤ MAX_CODE ≤ 2^N − 1`. -/
  | maxCode
  /-- `VREF > 0`. -/
  | vref
  deriving DecidableEq, Repr

namespace Config

/-- The conditions of R5, each with whether it holds. -/
def conditions (c : Config) : List (ConfigCondition × Bool) :=
  [(.bufLen, decide (1 ≤ c.bufLen) && decide (c.bufLen ≤ 65535)),
   (.taps, decide (1 ≤ c.taps) && decide (c.taps ≤ 4095)),
   (.coeffLength, decide (c.coeff.length = c.taps)),
   (.codeWidth, decide (1 ≤ c.codeWidth) && decide (c.codeWidth ≤ 16)),
   (.maxCode, decide (1 ≤ c.maxCode) && decide (c.maxCode ≤ 2 ^ c.codeWidth - 1)),
   (.vref, decide (0 < c.vref))]

/-- The configurations an instance exists for: every condition of R5 holds. -/
def valid (c : Config) : Bool := c.conditions.all fun p => p.2

/-- The conditions of R5 that fail, which the refusal `CFG_INVALID` records (R211). -/
def failing (c : Config) : List ConfigCondition := (c.conditions.filter fun p => !p.2).map fun p => p.1

/-- `SCALE_FN` of a `NUMERICS` known by its number alone (R148): it depends on its operand, `MAX_CODE` and `VREF` only. Nothing
else is known of it. OPEN, log 16. -/
opaque finiteScale : (fmt maxCode : Nat) → (vref : Val) → Code → Val

/-- `DOT_FN` of a `NUMERICS` known by its number alone (R148). Nothing else is known of it. OPEN, log 16. -/
opaque finiteDot : (fmt maxCode : Nat) → (vref : Val) → List Val → List Val → Val

/-- The bit encoding `VAL_FMT` of a value in `VAL_W` bits on the record port (R75). OPEN, log 16. -/
opaque encodeVal : (fmt width : Nat) → Val → BitVec width

/-- Free value: entry `n` of a sequence `xs` that has no entry `n` (R9 gives `xs[i]` no value there). DESIGN CHOICE,
log 23. -/
opaque freeEntry : (xs : List Val) → (n : Nat) → Val

/-- Free value: the code `COMPUTE` sees in entry `i` of `CAP` where that entry holds ⊥. The first argument is the
state's stamp `freeCtr`. Log 9. -/
opaque freeCode : Nat → Nat → Code

/-- Free value: what `EMIT` hands over as `u` where `OUT_U[E]` holds ⊥. Log 9. -/
opaque freeUnfiltered : Nat → Val

/-- Free value: what `EMIT` hands over as `f` where `OUT_F[E]` holds ⊥. Log 9. -/
opaque freeFiltered : Nat → Val

/-- OPEN parameters of the reference instance; the spec gives no value (R4), log 4. -/
opaque openVrefNum : Nat
/-- See `openVrefNum`. -/
opaque openVrefDen : Nat
/-- See `openVrefNum`. -/
opaque openTriggerNum : Nat
/-- See `openVrefNum`. -/
opaque openTriggerDen : Nat
/-- See `openVrefNum`. -/
opaque openValFmt : Nat
/-- See `openVrefNum`. -/
opaque openValWidth : Nat
/-- See `openVrefNum`. -/
opaque openBaseAddr : Nat

/-- A positive rational of which nothing else is known. -/
def openPositive (num den : Nat) : Val := ((num + 1 : Nat) : Val) / ((den + 1 : Nat) : Val)

theorem openPositive_pos (num den : Nat) : 0 < openPositive num den := by
  unfold openPositive
  positivity

/-- The instance `State.reset` is of: the reference values of R4 (`L` = 16, `T` = 29, coefficients 1/29), the defaults
(`MAX_CODE` = 2^N − 1, exact numerics, policy `fault`), `N` = 12 (DESIGN CHOICE, log 4: the source gives 12 as an
example only), and nothing known of the parameters that are OPEN. -/
def reference : Config where
  bufLen := 16
  taps := 29
  coeff := List.replicate 29 (1 / 29)
  codeWidth := 12
  maxCode := 4095
  vref := openPositive openVrefNum openVrefDen
  triggerFreq := ⟨openPositive openTriggerNum openTriggerDen, openPositive_pos _ _⟩
  numerics := .exact
  rangePolicy := .fault
  valFmt := openValFmt
  valWidth := openValWidth
  baseAddr := openBaseAddr

end Config

end Sys2Proof
end

