-- ==== Sys2Proof/Syntax.lean ====
section
/-! DEFINITION. The "instructions" of the block, one constructor per row of the opcode table, and the raw
transactions its ports carry (R70 to R77). -/

namespace Sys2Proof

/-- One row of `spec/opcode_table.json` each. A bus row carries its whole request bundle (R73): `WDATA` of a read is
ignored by the block and recorded in the history (R77). -/
inductive Instr where
  /-- `RESET` (R240). -/
  | reset
  /-- `WRITE c` (R100, R101). -/
  | write (code : Code)
  /-- `RD_STATUS` (R181). -/
  | rdStatus (wdata : Word)
  /-- `RD_SEQ` (R182). -/
  | rdSeq (wdata : Word)
  /-- `RD_CTRL` (R183). -/
  | rdCtrl (wdata : Word)
  /-- `RD_CFG` (R184). -/
  | rdCfg (wdata : Word)
  /-- `WR_STATUS` (R186). -/
  | wrStatus (wdata : Word)
  /-- `WR_SEQ` (R186). -/
  | wrSeq (wdata : Word)
  /-- `WR_CTRL` (R185). -/
  | wrCtrl (wdata : Word)
  /-- `WR_CFG` (R186). -/
  | wrCfg (wdata : Word)
  /-- `BUS_ERR` (R187): any other key, for read or write. -/
  | busErr (we : Bool) (addr : BitVec 8) (wdata : Word)
  /-- `START` (R121). -/
  | start
  /-- `CHECK_A` (R122). -/
  | checkA
  /-- `CHECK_B` (R123). -/
  | checkB
  /-- `CAPTURE` (R141). -/
  | capture
  /-- `COMPUTE` (R142). -/
  | compute
  /-- `EMIT` (R145), joint with the sink's acceptance (R200). -/
  | emit
  /-- `SCALE` (R170): the scaler as a function; it is no step and has no encoding. -/
  | scale (code : Code)
  /-- `FIR` (R143): the block filter as a function; it is no step and has no encoding. -/
  | fir (hist block : List Val)
  deriving DecidableEq, Repr

/-- What a port hands the block at one moment, as raw bits, the port being known by where it arrives (R81). -/
inductive Transaction where
  /-- The reset input `RST` (R76). -/
  | rst (bit : BitVec 1)
  /-- The sample port's 17-bit bundle `{VALID, CODE}` (R71). -/
  | sample (bundle : BitVec 17)
  /-- The register bus's 41-bit bundle `{WE, ADDR, WDATA}` (R73). -/
  | bus (bundle : BitVec 41)
  /-- A step with no port encoding, named by its 4-bit kind (R77): a sequencer step, or `EMIT`, the step in which the
  sink accepts. -/
  | event (kind : BitVec 4)
  deriving DecidableEq, Repr

end Sys2Proof
end

