-- ==== Sys2Proof/Machine/State.lean ====
section
/-! DEFINITION. The whole state of the block (R21), the fields the model keeps beside it, the reasons a step can stop,
and the state after reset. -/

namespace Sys2Proof.Machine

/-- `Buf` (R7): the two sample buffers. -/
inductive Buf where
  | A
  | B
  deriving DecidableEq, Repr

/-- The sequencer's phases (R31). -/
inductive Phase where
  | idle
  | checkA
  | checkB
  | capture
  | compute
  | emit
  deriving DecidableEq, Repr

/-- `READY_EVT` (R72): what a `WRITE` answers. -/
inductive ReadyEvt where
  | none
  | readyA
  | readyB
  deriving DecidableEq, Repr

/-- A bus response (R74). -/
structure BusResp where
  /-- `RESP`: false is `OKAY`, true is `ERR`. -/
  err : Bool
  /-- `RDATA`. -/
  rdata : Word
  deriving DecidableEq, Repr

/-- One entry of the event history (R77): kind, operands and response of a step. -/
inductive Event where
  | reset
  | write (code : Code) (resp : ReadyEvt)
  | busRd (request : BitVec 41) (resp : BusResp)
  | busWr (request : BitVec 41) (resp : BusResp)
  | start
  | checkA
  | checkB
  | capture
  | compute
  | emit (u f : Val)
  deriving DecidableEq, Repr

/-- A member of `FAULTS` with its recorded info (R211). -/
inductive FaultRecord where
  /-- Code 1, `CODE_RANGE`: the least index whose captured code is above `MAX_CODE`, and that code (R212). -/
  | codeRange (index : Nat) (code : Code)
  /-- Code 2, `UNWRITTEN_READ`: `CUR` and `J` (R213). -/
  | unwrittenRead (cur : Buf) (j : Nat)
  deriving DecidableEq, Repr

/-- A refused transaction with its recorded info (R211). `REFUSED` is true when there is one. -/
inductive RefusalRecord where
  /-- Code 3, `SampleReservedBits`: the bundle (R214). -/
  | sampleReservedBits (bundle : BitVec 17)
  deriving DecidableEq, Repr

/-- The model's own output of the two function rows of the table (log 15). -/
inductive FnResult where
  | none
  /-- The value `SCALE` answered. -/
  | scaled (v : Val)
  /-- The pair `(Y, H')` that `FIR` answered. -/
  | filtered (y h : List Val)
  deriving DecidableEq, Repr

/-- The storage of one sample buffer: the elements that hold a code, as (index, code), indices strictly rising. An index
that is not listed holds ⊥ (R22, log 11). -/
abbrev Memory := List (Nat × Code)

/-- The state of the block (R21), with the instance's configuration and the model's own fields after it. -/
structure State where
  /-- `BUF[A]` (R22). -/
  bufA : Memory
  /-- `BUF[B]` (R22). -/
  bufB : Memory
  /-- `ACTIVE` (R23). -/
  active : Buf
  /-- `FILL` (R24). -/
  fill : Nat
  /-- `PEND_A` (R25). -/
  pendA : Bool
  /-- `PEND_B` (R25). -/
  pendB : Bool
  /-- `SEQ` (R26). -/
  seq : Word
  /-- `OVR` (R27). -/
  ovr : Bool
  /-- `RANGE` (R28). -/
  range : Bool
  /-- `HIST[0..T-2]`, oldest first (R29). -/
  hist : List Val
  /-- `PHASE` (R31). -/
  phase : Phase
  /-- `CUR` (R32). -/
  cur : Buf
  /-- `J` (R33). -/
  j : Nat
  /-- `CAP[0..L-1]` (R34); `none` is ⊥. -/
  cap : List (Option Code)
  /-- `OUT_U[0..L-1]` (R35); `none` is ⊥. -/
  outU : List (Option Val)
  /-- `OUT_F[0..L-1]` (R35); `none` is ⊥. -/
  outF : List (Option Val)
  /-- `E` (R36). -/
  e : Nat
  /-- `FAULTS` (R37). -/
  faults : List FaultRecord
  /-- What was refused so far; `REFUSED` (R37) is true when this is not empty. -/
  refusals : List RefusalRecord
  /-- The instance's parameters (R4). No step writes them (R6). Model's own field, log 3. -/
  cfg : Config
  /-- The event history (R77), the latest entry first. Model's own field, log 17. -/
  history : List Event
  /-- The transactions and steps still to come, the next one first. Model's own field, log 1. -/
  sched : List Transaction
  /-- What the last `SCALE` or `FIR` row answered. Model's own field, log 15. -/
  fnResult : FnResult
  /-- The stamp of the next free value. Model's own field, log 9. -/
  freeCtr : Nat
  deriving DecidableEq, Repr

/-- Why the machine stops with a fault. -/
inductive Fault where
  /-- Every step answers this while `FAULTS` is not empty: no step of any agent is enabled, `RESET` included (R37). Safe:
  the spec itself gives a faulted state no further step. -/
  | quiescent
  /-- `WRITE`, `CAPTURE` or `EMIT` at an index that is not below `L`: the element does not exist (R22, R35, R52). No
  state reached from reset raises it (R39). Safe, log 10. -/
  | noSuchElement
  deriving DecidableEq, Repr

/-- Why a step has no meaning. -/
inductive Refusal where
  /-- Raised by no meaning: kept for an arm of `exec` that has none yet. Safe. -/
  | notModelled (mnemonic : String)
  /-- Raised by a sequencer step (its 4-bit kind) in a state where it is not enabled: "an error in the script, not a
  behaviour of the block" (R82). Safe, log 8. -/
  | notEnabled (kind : BitVec 4)
  /-- Raised by `step` for a scheduled event kind that names no sequencer step: the reserved kinds 0xA to 0xF, and 0x0 to
  0x3, whose steps come as a port bundle (R77). Safe, log 8. -/
  | noSuchEvent (kind : BitVec 4)
  /-- Code 4, `CFG_INVALID`, with the conditions of R5 that fail: raised by the creation of an instance (R5, R211). Safe:
  the spec's own refusal. -/
  | cfgInvalid (failing : List ConfigCondition)
  /-- Raised by `SCALE` and `FIR` for an operand outside the type the spec gives it (R143, R170). Safe, log 15. -/
  | operandOutsideType
  deriving DecidableEq, Repr

/-- A block instance of configuration `c` right after creation and `RESET`: every field at its value in R21. -/
def State.resetOf (c : Config) : State where
  bufA := []
  bufB := []
  active := .A
  fill := 0
  pendA := false
  pendB := false
  seq := 0#32
  ovr := false
  range := false
  hist := List.replicate (c.taps - 1) 0
  phase := .idle
  cur := .A
  j := 0
  cap := List.replicate c.bufLen none
  outU := List.replicate c.bufLen none
  outF := List.replicate c.bufLen none
  e := 0
  faults := []
  refusals := []
  cfg := c
  history := []
  sched := []
  fnResult := .none
  freeCtr := 0

/-- The machine right after reset (R21, R241), as an instance of the reference configuration (log 4). -/
def State.reset : State := State.resetOf Config.reference

end Sys2Proof.Machine
end

