-- ==== Sys2Proof/Machine/Operands.lean ====
section
/-! DEFINITION. Operand assembly (R78), the bit formats of the ports (R71 to R76), and the encodings of the small types
(R7, R31, R72, R77). -/

namespace Sys2Proof.Machine

/-! ### The small types as bits -/

/-- `other(A) = B`, `other(B) = A` (R7). -/
def Buf.other : Buf → Buf
  | .A => .B
  | .B => .A

/-- A is 0, B is 1 (R7). -/
def Buf.bit : Buf → BitVec 1
  | .A => 0#1
  | .B => 1#1

/-- The 3-bit encoding of `PHASE` (R31). -/
def Phase.enc : Phase → BitVec 3
  | .idle => 0#3
  | .checkA => 1#3
  | .checkB => 2#3
  | .capture => 3#3
  | .compute => 4#3
  | .emit => 5#3

/-- The 2-bit `READY_EVT` (R72); 11 is never driven. -/
def ReadyEvt.enc : ReadyEvt → BitVec 2
  | .none => 0#2
  | .readyA => 1#2
  | .readyB => 2#2

/-- The response of the `WRITE` that fills buffer `x` (R101). -/
def readyOf : Buf → ReadyEvt
  | .A => .readyA
  | .B => .readyB

/-- The 33-bit response bundle `{RESP, RDATA}` (R74). -/
def BusResp.enc (r : BusResp) : BitVec 33 := BitVec.ofBool r.err ++ r.rdata

/-- `OKAY` with read data (R74). -/
def okay (rdata : Word) : BusResp := ⟨false, rdata⟩

/-- `ERR` with `RDATA` 0 (R74). -/
def errResp : BusResp := ⟨true, 0#32⟩

/-- The 4-bit kinds of the sequencer's steps (R77). -/
def kindStart : BitVec 4 := 0x4#4
/-- See `kindStart`. -/
def kindCheckA : BitVec 4 := 0x5#4
/-- See `kindStart`. -/
def kindCheckB : BitVec 4 := 0x6#4
/-- See `kindStart`. -/
def kindCapture : BitVec 4 := 0x7#4
/-- See `kindStart`. -/
def kindCompute : BitVec 4 := 0x8#4
/-- See `kindStart`. -/
def kindEmit : BitVec 4 := 0x9#4

/-- The kind of a history entry (R77). -/
def Event.kind : Event → BitVec 4
  | .reset => 0x0#4
  | .write _ _ => 0x1#4
  | .busRd _ _ => 0x2#4
  | .busWr _ _ => 0x3#4
  | .start => kindStart
  | .checkA => kindCheckA
  | .checkB => kindCheckB
  | .capture => kindCapture
  | .compute => kindCompute
  | .emit _ _ => kindEmit

/-- The number of a fault in R211. -/
def FaultRecord.number : FaultRecord → Nat
  | .codeRange _ _ => 1
  | .unwrittenRead _ _ => 2

/-- The number of a refusal in R211. -/
def RefusalRecord.number : RefusalRecord → Nat
  | .sampleReservedBits _ => 3

/-- The number in R211 of a step's or a creation's refusal; the model's own refusals have none. -/
def Refusal.number : Refusal → Option Nat
  | .cfgInvalid _ => some 4
  | _ => none

/-! ### The sample port (R71) -/

/-- Bits `CODE[15:N]` of a sample are 0: the code is one of the `N`-bit codes (R71). -/
def codeFits (n : Nat) (c : Code) : Bool := decide (c.toNat < 2 ^ n)

/-- The bundle `{VALID = 1, CODE}`. -/
def sampleBundle (c : Code) : BitVec 17 := 1#1 ++ c

/-- `VALID`, bit 16. -/
def sampleValid (b : BitVec 17) : Bool := b.getLsbD 16

/-- `CODE`, bits 15 to 0, neither extended nor shifted (R78). -/
def sampleCode (b : BitVec 17) : Code := b.extractLsb' 0 16

/-! ### The register bus (R73) -/

/-- The bundle `{WE, ADDR, WDATA}`. -/
def busBundle (we : Bool) (addr : BitVec 8) (wdata : Word) : BitVec 41 :=
  BitVec.ofBool we ++ addr ++ wdata

/-- `WE`, bit 40. -/
def busWe (b : BitVec 41) : Bool := b.getLsbD 40

/-- `ADDR`, bits 39 to 32. -/
def busAddr (b : BitVec 41) : BitVec 8 := b.extractLsb' 32 8

/-- `WDATA`, bits 31 to 0. -/
def busWdata (b : BitVec 41) : Word := b.extractLsb' 0 32

/-- The decode key `K = {WE, ADDR}` (R73). -/
def busKey (we : Bool) (addr : BitVec 8) : BitVec 9 := BitVec.ofBool we ++ addr

/-- The keys of the first eight rows of R79. -/
def mappedKeys : List (BitVec 9) :=
  [0x000#9, 0x004#9, 0x008#9, 0x00C#9, 0x100#9, 0x104#9, 0x108#9, 0x10C#9]

/-- `CTRL.OVR_CLR`, bit 0 of the write data (R43). -/
def ctrlOvrClr (wdata : Word) : Bool := wdata.getLsbD 0

/-- `CTRL.RANGE_CLR`, bit 1 of the write data (R43). -/
def ctrlRangeClr (wdata : Word) : Bool := wdata.getLsbD 1

/-- Byte lane `k` of a register word on a byte-addressed fabric: bits `[8k+7:8k]` (R51). -/
def laneByte (w : Word) (k : Nat) : BitVec 8 := w.extractLsb' (8 * k) 8

end Sys2Proof.Machine
end

