-- ==== Sys2Proof/Machine/Ops.lean ====
section
/-! DEFINITION. The shared operations over buffers and registers, and the ones every step is made of: enabling (R37),
`raise`, `refuse`, `respond` (R8), acknowledging a ready condition (R122, R123) and RESET (R240). -/

namespace Sys2Proof.Machine

/-- What a step answers. -/
abbrev Result := Host.Outcome State Fault Refusal

/-! ### Sample-buffer storage (R50) -/

/-- `BufRead` on one buffer: element `i`, or `none` for ⊥ (R8). -/
def Memory.read : Memory → Nat → Option Code
  | [], _ => none
  | (a, c) :: m, i => if a = i then some c else Memory.read m i

/-- `BufWrite` on one buffer (R8), keeping the indices strictly rising. -/
def Memory.write : Memory → Nat → Code → Memory
  | [], i, c => [(i, c)]
  | (a, d) :: m, i, c =>
    if i < a then (i, c) :: (a, d) :: m
    else if i = a then (i, c) :: m
    else (a, d) :: Memory.write m i c

/-- The canonical form: indices strictly rising. (An unlisted index reads as ⊥, which no entry holds.) -/
def Memory.wf : Memory → Bool
  | [] => true
  | [_] => true
  | (a, _) :: (b, d) :: m => decide (a < b) && Memory.wf ((b, d) :: m)

/-! ### Accessors for what comes in a pair, A and B -/

/-- `BUF[x]` (R22). -/
def State.buf (s : State) : Buf → Memory
  | .A => s.bufA
  | .B => s.bufB

/-- `BUF[x] <- m`. -/
def State.setBuf (s : State) (x : Buf) (m : Memory) : State :=
  match x with
  | .A => { s with bufA := m }
  | .B => { s with bufB := m }

/-- `PEND_x` (R25). -/
def State.pend (s : State) : Buf → Bool
  | .A => s.pendA
  | .B => s.pendB

/-- `PEND_x <- v`. -/
def State.setPend (s : State) (x : Buf) (v : Bool) : State :=
  match x with
  | .A => { s with pendA := v }
  | .B => { s with pendB := v }

/-- The code in entry `i` of `CAP`. Where the entry holds ⊥, or does not exist, which no run from reset reaches (R39), a
free `N`-bit code (log 9). -/
def State.capCode (s : State) (i : Nat) : Code :=
  match s.cap[i]? with
  | some (some c) => c
  | _ => BitVec.ofNat 16 ((Config.freeCode s.freeCtr i).toNat % 2 ^ s.cfg.codeWidth)

/-- `OUT_U[E]`, or a free value where it holds ⊥ (log 9). -/
def State.recordU (s : State) : Val :=
  match s.outU[s.e]? with
  | some (some v) => v
  | _ => Config.freeUnfiltered s.freeCtr

/-- `OUT_F[E]`, or a free value where it holds ⊥ (log 9). -/
def State.recordF (s : State) : Val :=
  match s.outF[s.e]? with
  | some (some v) => v
  | _ => Config.freeFiltered s.freeCtr

/-! ### What every step is made of -/

/-- Adds an entry to the event history (R77). -/
def State.record (s : State) (ev : Event) : State := { s with history := ev :: s.history }

/-- `raise Fault(f)` (R8, R37): taking a model fault. It adds `f` to the set `FAULTS` and writes nothing else: no saved
state, no mode, no vector (R210). -/
def State.raise (s : State) (f : FaultRecord) : State := { s with faults := s.faults.insert f }

/-- `refuse(r)` (R8, R37): marks the run refused and writes nothing else. -/
def State.refuse (s : State) (r : RefusalRecord) : State := { s with refusals := s.refusals ++ [r] }

/-- `REFUSED` (R37). -/
def State.isRefused (s : State) : Bool := !s.refusals.isEmpty

/-- What a function row of the table answers goes to the model's own `fnResult` (log 15). -/
def State.answer (s : State) (r : FnResult) : State := { s with fnResult := r }

/-- While `FAULTS` is not empty no step of any agent is enabled (R37). -/
def whenRunning (s : State) (r : Result) : Result :=
  if s.faults.isEmpty then r else .fault .quiescent

/-- A sequencer step of kind `k` that is enabled only where `p` holds (R120). -/
def whenEnabled (s : State) (k : BitVec 4) (p : Bool) (r : Result) : Result :=
  whenRunning s (if p then r else .refused (.notEnabled k))

/-- An access at index `i` of a sequence of `L` elements. -/
def whenInRange (s : State) (i : Nat) (r : Result) : Result :=
  if i < s.cfg.bufLen then r else .fault .noSuchElement

/-- A bus read of `addr`: it answers `resp`, is recorded, and changes nothing (R54, R180). -/
def busRead (s : State) (addr : BitVec 8) (wdata : Word) (resp : BusResp) : Result :=
  whenRunning s (.next (s.record (.busRd (busBundle false addr wdata) resp)))

/-- A bus write of `addr`, whose effect on the state is to give `t`: it answers `resp` and is recorded (R180). -/
def busWrite (s t : State) (addr : BitVec 8) (wdata : Word) (resp : BusResp) : Result :=
  whenRunning s (.next (t.record (.busWr (busBundle true addr wdata) resp)))

/-- `PHASE <- p` (R8): moves the sequencer. -/
def State.goTo (s : State) (p : Phase) : State := { s with phase := p }

/-- Acknowledges ready condition `x`: clears its flag and begins the capture of buffer `x` (R122, R123). -/
def State.acknowledge (s : State) (x : Buf) : State :=
  { s.setPend x false with cur := x, j := 0, phase := .capture }

/-- A check of ready condition `x`: acknowledge it when it is pending, else go on to `other` (R122, R123). -/
def State.check (s : State) (x : Buf) (other : Phase) : State :=
  if s.pend x then s.acknowledge x else s.goTo other

/-- The `RESET` assignments (R240). `FAULTS` and `REFUSED` are not changed (R37). -/
def State.resetFields (s : State) : State :=
  { s with
    bufA := [], bufB := []
    active := .A, fill := 0, pendA := false, pendB := false, seq := 0#32
    ovr := false, range := false
    hist := List.replicate (s.cfg.taps - 1) 0
    phase := .idle, cur := .A, j := 0, e := 0
    cap := List.replicate s.cfg.bufLen none
    outU := List.replicate s.cfg.bufLen none
    outF := List.replicate s.cfg.bufLen none }

/-- The creation of an instance (R5, R211, R217): an invalid configuration is refused and no instance exists. -/
def State.create (c : Config) : Result :=
  if c.valid then .next (State.resetOf c) else .refused (.cfgInvalid c.failing)

end Sys2Proof.Machine
end

