-- ==== Sys2Proof/Machine/Flags.lean ====
section
/-! DEFINITION. The conditions that set flags (R102, R173), the outputs that are functions of the state (R38), and the
register views (R41, R44). -/

namespace Sys2Proof.Machine

/-- The role of a buffer (R23): true for the active one. -/
def State.isActive (s : State) (x : Buf) : Bool := decide (x = s.active)

/-- `BUSY` (R31). -/
def State.busy (s : State) : Bool := decide (s.phase ≠ .idle)

/-- The output `IRQ` (R38, R218): a level, no enable and no mask. -/
def State.irq (s : State) : Bool := s.pendA || s.pendB

/-- The output `REC_VALID` (R38). -/
def State.recValid (s : State) : Bool := decide (s.phase = .emit)

/-- The output `REC_U` (R38); `none` is ⊥. It is meaningful only while `REC_VALID`. Where `OUT_U[E]` does not exist, as after
the last `EMIT`, when `E = L`, the spec states no value and the model shows ⊥ (DESIGN CHOICE, log 25). -/
def State.recU (s : State) : Option Val := s.outU.getD s.e none

/-- The output `REC_F` (R38); `none` is ⊥. As `recU` where `OUT_F[E]` does not exist (DESIGN CHOICE, log 25). -/
def State.recF (s : State) : Option Val := s.outF.getD s.e none

/-- A record as one data word `{REC_F, REC_U}` in the format `VAL_FMT` (R75). -/
def recordWord (c : Config) (u f : Val) : BitVec (c.valWidth + c.valWidth) :=
  Config.encodeVal c.valFmt c.valWidth f ++ Config.encodeVal c.valFmt c.valWidth u

/-- The `corrupt` condition of a `WRITE` (R101, R102): the store meets a code the sequencer has not read. -/
def State.corrupt (s : State) : Bool :=
  s.pend s.active ||
  (decide (s.phase = .capture) && decide (s.cur = s.active) && decide (s.j ≤ s.fill))

/-- The least index whose captured code is above `MAX_CODE` (R142, R211). -/
def State.firstAboveMax (s : State) : Option Nat :=
  (List.range s.cfg.bufLen).find? fun i => decide (s.cfg.maxCode < (s.capCode i).toNat)

/-- The value `STATUS` reads as (R41, R181), most significant field first. -/
def State.statusWord (s : State) : Word :=
  BitVec.ofNat 16 s.fill ++ 0#6 ++ BitVec.ofBool s.range ++ BitVec.ofBool s.ovr ++ BitVec.ofBool s.irq ++
  s.phase.enc ++ s.cur.bit ++ s.active.bit ++ BitVec.ofBool s.pendB ++ BitVec.ofBool s.pendA

/-- The value `CFG` reads as (R44, R184). -/
def cfgWord (c : Config) : Word :=
  BitVec.ofNat 4 (c.codeWidth - 1) ++ BitVec.ofNat 12 c.taps ++ BitVec.ofNat 16 c.bufLen

end Sys2Proof.Machine
end

