-- ==== Sys2Proof/Machine/Dispatcher.lean ====
section
/-! DEFINITION. The Dispatcher, front half of the sequencer: `START`, `CHECK_A`, `CHECK_B` (R120 to R128). -/

namespace Sys2Proof.Machine

/-- `START`, kind 0x4 (R121, R220): the entry of an invocation, enabled in `IDLE` while `IRQ` is asserted. Nothing is
saved. -/
def execStart (s : State) : Result :=
  whenEnabled s kindStart (decide (s.phase = .idle) && s.irq)
    (.next ((s.goTo .checkA).record .start))

/-- `CHECK_A`, kind 0x5 (R122). -/
def execCheckA (s : State) : Result :=
  whenEnabled s kindCheckA (decide (s.phase = .checkA)) (.next ((s.check .A .checkB).record .checkA))

/-- `CHECK_B`, kind 0x6 (R123): where nothing is pending, the return of the invocation (R221), which restores nothing. -/
def execCheckB (s : State) : Result :=
  whenEnabled s kindCheckB (decide (s.phase = .checkB)) (.next ((s.check .B .idle).record .checkB))

end Sys2Proof.Machine
end

