-- ==== Sys2Proof/Machine/Engine.lean ====
section
/-! DEFINITION. The Double-Buffer Engine: `WRITE` (R100 to R104). -/

namespace Sys2Proof.Machine

/-- The store of a `WRITE` and its `OVR` clause (R101, R102); both see the state before the step (R222 (b)). -/
def State.storeSample (s : State) (c : Code) : State :=
  { s.setBuf s.active ((s.buf s.active).write s.fill c) with ovr := s.ovr || s.corrupt }

/-- The fill: the active buffer is marked settled and pending, `SEQ` counts, the buffers swap (R101, R103). -/
def State.swapBuffers (s : State) : State :=
  { s.setPend s.active true with fill := 0, seq := s.seq + 1#32, active := s.active.other }

/-- `FILL <- i + 1` (R101). -/
def State.advanceFill (s : State) : State := { s with fill := s.fill + 1 }

/-- The whole step of `WRITE c` for a code of the port's width (R101). -/
def State.writeStep (s : State) (c : Code) : State :=
  if s.fill + 1 = s.cfg.bufLen then
    ((s.storeSample c).swapBuffers).record (.write c (readyOf s.active))
  else
    ((s.storeSample c).advanceFill).record (.write c .none)

/-- `WRITE c`, kind 0x1, agent P (R101): enabled whatever the sequencer does. A code with reserved bits set is refused
(R71, R214). -/
def execWrite (c : Code) (s : State) : Result :=
  whenRunning s
    (if codeFits s.cfg.codeWidth c then whenInRange s s.fill (.next (s.writeStep c))
     else .next (s.refuse (.sampleReservedBits (sampleBundle c))))

end Sys2Proof.Machine
end

