-- ==== Sys2Proof/Machine/Numeric.lean ====
section
/-! DEFINITION. The two functions `COMPUTE` applies: the scaler (R170) and the block FIR filter (R143), with the sequence
notation of R9. -/

namespace Sys2Proof

/-- What a `NumExpr` can see: the operands of `SCALE_FN` or of `DOT_FN`, `MAX_CODE`, `VREF` (R148), and inside a fold the
accumulator and the tap. -/
structure NumEnv where
  code : Val := 0
  maxCode : Val
  vref : Val
  coeff : List Val := []
  window : List Val := []
  acc : Val := 0
  tapCoeff : Val := 0
  tapWindow : Val := 0

/-- The function a `NumExpr` writes out. Every expression has a value (R148 asks for total functions): an operand it does not
have, a tap that does not exist and a quotient by 0 are 0 in this notation (log 16). -/
def NumExpr.eval : NumExpr → NumEnv → Val
  | .const v, _ => v
  | .code, env => env.code
  | .maxCode, env => env.maxCode
  | .vref, env => env.vref
  | .coeff k, env => env.coeff.getD k 0
  | .window k, env => env.window.getD k 0
  | .acc, env => env.acc
  | .tapCoeff, env => env.tapCoeff
  | .tapWindow, env => env.tapWindow
  | .add a b, env => a.eval env + b.eval env
  | .sub a b, env => a.eval env - b.eval env
  | .mul a b, env => a.eval env * b.eval env
  | .div a b, env => a.eval env / b.eval env
  | .floor a, env => ((a.eval env).floor : Val)
  | .ifLe a b x y, env => if a.eval env ≤ b.eval env then x.eval env else y.eval env
  | .foldTaps init next, env =>
    (env.coeff.zip env.window).foldl
      (fun acc tap => next.eval { env with acc := acc, tapCoeff := tap.1, tapWindow := tap.2 }) (init.eval env)

namespace Machine

/-- `last_k(xs)` (R9): the last `k` elements in their order, zero-padded on the left. -/
def lastK (k : Nat) (xs : List Val) : List Val :=
  List.replicate (k - xs.length) 0 ++ xs.drop (xs.length - k)

/-- `SCALE_FN` with exact numerics (R170): `(c × VREF) / MAX_CODE`. `MAX_CODE` is not 0 in a valid configuration (R5;
log 24). -/
def exactScale (c : Config) (code : Code) : Val := ((code.toNat : Val) * c.vref) / (c.maxCode : Val)

/-- `SCALE_FN` (R148, R170). -/
def scaleFn (c : Config) (code : Code) : Val :=
  match c.numerics with
  | .exact => exactScale c code
  | .given scale _ => scale.eval { code := (code.toNat : Val), maxCode := (c.maxCode : Val), vref := c.vref }
  | .finite fmt => Config.finiteScale fmt c.maxCode c.vref code

/-- `DOT_FN` with exact numerics (R148): `Σ c[k] × w[k]`. Both have `T` entries in a valid configuration (R5; log 24). -/
def exactDot (coeff window : List Val) : Val := (List.zipWith (· * ·) coeff window).sum

/-- `DOT_FN` (R148). -/
def dotFn (c : Config) (coeff window : List Val) : Val :=
  match c.numerics with
  | .exact => exactDot coeff window
  | .given _ dot => dot.eval { maxCode := (c.maxCode : Val), vref := c.vref, coeff := coeff, window := window }
  | .finite fmt => Config.finiteDot fmt c.maxCode c.vref coeff window

/-- `window_i` (R143): `window_i[k] = ext[T-1+i-k]`, the newest input first. R143 is given for a history of `T - 1` values,
where every such entry exists. In a hand-built state with another `HIST` an entry may not, and R9 gives it no value: it is
a free value (DESIGN CHOICE, log 23). -/
def firWindow (taps : Nat) (ext : List Val) (i : Nat) : List Val :=
  (List.range taps).map fun k => ext.getD (taps - 1 + i - k) (Config.freeEntry ext (taps - 1 + i - k))

/-- `fir_block(H, V)` (R143): the outputs of the block and the new delay line. -/
def firBlock (c : Config) (h v : List Val) : List Val × List Val :=
  let ext := h ++ v
  ((List.range v.length).map fun i => dotFn c c.coeff (firWindow c.taps ext i), lastK (c.taps - 1) ext)

end Machine

end Sys2Proof
end

