-- ==== Sys2Proof/Machine/Processor.lean ====
section
/-! DEFINITION. The Buffer Processor: `CAPTURE`, `COMPUTE`, `EMIT` and the function row `FIR` (R140 to R149). -/

namespace Sys2Proof.Machine

/-- `CAP[J] <- c`, the next index, and after the last one on to `COMPUTE` (R141). -/
def State.storeCapture (s : State) (c : Code) : State :=
  { s with
    cap := s.cap.set s.j (some c)
    j := s.j + 1
    phase := if s.j + 1 = s.cfg.bufLen then .compute else .capture }

/-- The step of `CAPTURE` (R141): reads one element, or raises `UNWRITTEN_READ` where it holds ⊥ (R213). A step that
raises is recorded like any other (R77). -/
def State.captureStep (s : State) : State :=
  match (s.buf s.cur).read s.j with
  | none => (s.raise (.unwrittenRead s.cur s.j)).record .capture
  | some c =>
    (s.storeCapture c).record .capture

/-- `CAPTURE`, kind 0x7 (R141). -/
def execCapture (s : State) : Result :=
  whenEnabled s kindCapture (decide (s.phase = .capture)) (whenInRange s s.j (.next s.captureStep))

/-- The scaled codes `V` of the captured block (R142). -/
def State.scaledBlock (s : State) : List Val :=
  (List.range s.cfg.bufLen).map fun i => scaleFn s.cfg (s.capCode i)

/-- Scaling, filtering and the new delay line (R142); `range` is the new value of `RANGE`. -/
def State.filterBlock (s : State) (range : Bool) : State :=
  { s with
    range := range
    outU := s.scaledBlock.map some
    outF := (firBlock s.cfg s.hist s.scaledBlock).1.map some
    hist := (firBlock s.cfg s.hist s.scaledBlock).2
    e := 0
    phase := .emit
    freeCtr := s.freeCtr + 1 }

/-- The step of `COMPUTE` (R142) with the range check of R173. -/
def State.computeStep (s : State) : State :=
  match s.firstAboveMax, s.cfg.rangePolicy with
  | some i, .fault => (s.raise (.codeRange i (s.capCode i))).record .compute
  | some _, .compute => (s.filterBlock true).record .compute
  | none, _ => (s.filterBlock s.range).record .compute

/-- `COMPUTE`, kind 0x8 (R142). -/
def execCompute (s : State) : Result :=
  whenEnabled s kindCompute (decide (s.phase = .compute)) (.next s.computeStep)

/-- Where the sequencer goes after the last record of a buffer (R145): from A on to condition B, from B to the end of the
invocation. -/
def phaseAfterLast : Buf → Phase
  | .A => .checkB
  | .B => .idle

/-- `E <- E + 1`, and after the last record the next phase (R145). -/
def State.advanceEmit (s : State) : State :=
  { s with
    e := s.e + 1
    phase := if s.e + 1 = s.cfg.bufLen then phaseAfterLast s.cur else .emit
    freeCtr := s.freeCtr + 1 }

/-- The step of `EMIT` (R145): hands record `E` over. -/
def State.emitStep (s : State) : State := s.advanceEmit.record (.emit s.recordU s.recordF)

/-- `EMIT`, kind 0x9, agents S and K (R145): that the step is taken is the sink's acceptance, `REC_READY = 1` (R200,
log 21). -/
def execEmit (s : State) : Result :=
  whenEnabled s kindEmit (decide (s.phase = .emit)) (whenInRange s s.e (.next s.emitStep))

/-- The row `FIR` (R143): the filter as a function of its operands alone. It is no step: it is not recorded, needs no
enabling, and its result goes to the model's own `fnResult` (log 15). -/
def execFir (h v : List Val) (s : State) : Result :=
  if h.length = s.cfg.taps - 1 ∧ v.length = s.cfg.bufLen then
    .next (s.answer (.filtered (firBlock s.cfg h v).1 (firBlock s.cfg h v).2))
  else .refused .operandOutsideType

end Sys2Proof.Machine
end

