-- ==== Sys2Proof/Machine/RegisterBus.lean ====
section
/-! DEFINITION. The register bus operations (R180 to R188). -/

namespace Sys2Proof.Machine

/-- `RD_STATUS`, K = 0x000 (R181): one snapshot of every field (R53). -/
def execRdStatus (wdata : Word) (s : State) : Result := busRead s 0x00#8 wdata (okay s.statusWord)

/-- `RD_SEQ`, K = 0x004 (R182). -/
def execRdSeq (wdata : Word) (s : State) : Result := busRead s 0x04#8 wdata (okay s.seq)

/-- `RD_CTRL`, K = 0x008 (R183): `CTRL` holds nothing. -/
def execRdCtrl (wdata : Word) (s : State) : Result := busRead s 0x08#8 wdata (okay 0#32)

/-- `RD_CFG`, K = 0x00C (R184). -/
def execRdCfg (wdata : Word) (s : State) : Result := busRead s 0x0C#8 wdata (okay (cfgWord s.cfg))

/-- `WR_STATUS`, K = 0x100 (R186): ignored. -/
def execWrStatus (wdata : Word) (s : State) : Result := busWrite s s 0x00#8 wdata (okay 0#32)

/-- `WR_SEQ`, K = 0x104 (R186): ignored. -/
def execWrSeq (wdata : Word) (s : State) : Result := busWrite s s 0x04#8 wdata (okay 0#32)

/-- The write-1-to-clear effect of `CTRL` (R43, R185); bits 31 to 2 are ignored. -/
def State.ctrlClear (s : State) (wdata : Word) : State :=
  { s with
    ovr := s.ovr && !(ctrlOvrClr wdata)
    range := s.range && !(ctrlRangeClr wdata) }

/-- `WR_CTRL`, K = 0x108 (R185). -/
def execWrCtrl (wdata : Word) (s : State) : Result := busWrite s (s.ctrlClear wdata) 0x08#8 wdata (okay 0#32)

/-- `WR_CFG`, K = 0x10C (R186): ignored. -/
def execWrCfg (wdata : Word) (s : State) : Result := busWrite s s 0x0C#8 wdata (okay 0#32)

/-- `BUS_ERR` (R187): a misaligned or unmapped offset answers `ERR` and changes nothing. -/
def execBusErr (we : Bool) (addr : BitVec 8) (wdata : Word) (s : State) : Result :=
  if we then busWrite s s addr wdata errResp else busRead s addr wdata errResp

end Sys2Proof.Machine
end

