-- ==== Sys2Proof/Machine/Reset.lean ====
section
/-! DEFINITION. `RESET` (R240 to R242). -/

namespace Sys2Proof.Machine

/-- `RESET`, kind 0x0, agent R (R240): allowed in any phase, and not in a faulted state (R37). It abandons an invocation
in progress. -/
def execReset (s : State) : Result := whenRunning s (.next (s.resetFields.record .reset))

end Sys2Proof.Machine
end

