-- ==== Sys2Proof/Machine/Scaler.lean ====
section
/-! DEFINITION. The function row `SCALE` (R170 to R174). -/

namespace Sys2Proof.Machine

/-- The row `SCALE` (R170): the scaler as a pure function of its operand (R174). It is no step: it is not recorded, needs
no enabling, sets no flag for a code above `MAX_CODE`, and its result goes to the model's own `fnResult` (log 15). -/
def execScale (c : Code) (s : State) : Result :=
  if codeFits s.cfg.codeWidth c then .next (s.answer (.scaled (scaleFn s.cfg c)))
  else .refused .operandOutsideType

end Sys2Proof.Machine
end

