-- ==== Sys2Proof/Machine/Dispatch.lean ====
section
/-! DEFINITION. One arm per row of the opcode table, each a direct call of that row's meaning. -/

namespace Sys2Proof.Machine

def exec (i : Instr) (s : State) : Host.Outcome State Fault Refusal :=
  match i with
  | .reset => Sys2Proof.Machine.execReset s
  | .write c => Sys2Proof.Machine.execWrite c s
  | .rdStatus w => Sys2Proof.Machine.execRdStatus w s
  | .rdSeq w => Sys2Proof.Machine.execRdSeq w s
  | .rdCtrl w => Sys2Proof.Machine.execRdCtrl w s
  | .rdCfg w => Sys2Proof.Machine.execRdCfg w s
  | .wrStatus w => Sys2Proof.Machine.execWrStatus w s
  | .wrSeq w => Sys2Proof.Machine.execWrSeq w s
  | .wrCtrl w => Sys2Proof.Machine.execWrCtrl w s
  | .wrCfg w => Sys2Proof.Machine.execWrCfg w s
  | .busErr we addr w => Sys2Proof.Machine.execBusErr we addr w s
  | .start => Sys2Proof.Machine.execStart s
  | .checkA => Sys2Proof.Machine.execCheckA s
  | .checkB => Sys2Proof.Machine.execCheckB s
  | .capture => Sys2Proof.Machine.execCapture s
  | .compute => Sys2Proof.Machine.execCompute s
  | .emit => Sys2Proof.Machine.execEmit s
  | .scale c => Sys2Proof.Machine.execScale c s
  | .fir h v => Sys2Proof.Machine.execFir h v s

end Sys2Proof.Machine
end

