-- ==== Sys2Proof/WellFormed.lean ====
section
/-! DEFINITION. Which instructions are well formed for a configuration: every operand in the type the spec gives it. -/

namespace Sys2Proof

open Sys2Proof.Machine

/-- The operands lie in the spec's types: a `WRITE` or `SCALE` operand is an `N`-bit code (R71, R170), a `BUS_ERR` key is
none of the eight mapped ones (R79), `FIR` gets `T - 1` history values and `L` inputs (R143). -/
def wellFormed (c : Config) : Instr → Bool
  | .write code => codeFits c.codeWidth code
  | .busErr we addr _ => !(mappedKeys.contains (busKey we addr))
  | .scale code => codeFits c.codeWidth code
  | .fir hist block => decide (hist.length = c.taps - 1) && decide (block.length = c.bufLen)
  | .reset => true
  | .rdStatus _ => true
  | .rdSeq _ => true
  | .rdCtrl _ => true
  | .rdCfg _ => true
  | .wrStatus _ => true
  | .wrSeq _ => true
  | .wrCtrl _ => true
  | .wrCfg _ => true
  | .start => true
  | .checkA => true
  | .checkB => true
  | .capture => true
  | .compute => true
  | .emit => true

end Sys2Proof
end

