-- ==== Sys2Proof/Decode.lean ====
section
/-! DEFINITION. The decoder of each port (R71, R73, R76, R77, R79), total on any bits and rejecting by name; after it
the encoder, from the same tables; and the mapping of the opcode table's numbering to the ports. -/

namespace Sys2Proof

open Sys2Proof.Machine

/-- What a transaction spells. -/
inductive DecodeResult where
  /-- An instruction. -/
  | instr (i : Instr)
  /-- No transaction: `VALID = 0` or `RST = 0` (R71, R76, R79). -/
  | noTransaction
  /-- A sample bundle with reserved bits set: refused (R71, R214). -/
  | sampleReservedBits (bundle : BitVec 17)
  /-- An event kind that names no sequencer step (R77). -/
  | noSuchEvent (kind : BitVec 4)
  deriving DecidableEq, Repr

/-- The sample port (R71, R79), for codes of `n` bits. -/
def decodeSample (n : Nat) (b : BitVec 17) : DecodeResult :=
  if sampleValid b then
    if codeFits n (sampleCode b) then .instr (.write (sampleCode b)) else .sampleReservedBits b
  else .noTransaction

/-- The register bus: the rows of R79 in their order, the first match wins and the last row matches every key. -/
def decodeBus (b : BitVec 41) : Instr :=
  let key := busKey (busWe b) (busAddr b)
  let wdata := busWdata b
  if key = 0x000#9 then .rdStatus wdata
  else if key = 0x004#9 then .rdSeq wdata
  else if key = 0x008#9 then .rdCtrl wdata
  else if key = 0x00C#9 then .rdCfg wdata
  else if key = 0x100#9 then .wrStatus wdata
  else if key = 0x104#9 then .wrSeq wdata
  else if key = 0x108#9 then .wrCtrl wdata
  else if key = 0x10C#9 then .wrCfg wdata
  else .busErr (busWe b) (busAddr b) wdata

/-- The steps without a port encoding, by kind (R77). -/
def decodeEvent (k : BitVec 4) : DecodeResult :=
  if k = kindStart then .instr .start
  else if k = kindCheckA then .instr .checkA
  else if k = kindCheckB then .instr .checkB
  else if k = kindCapture then .instr .capture
  else if k = kindCompute then .instr .compute
  else if k = kindEmit then .instr .emit
  else .noSuchEvent k

/-- The decoder: the port is known by where the transaction arrives (R81). -/
def decode (n : Nat) : Transaction → DecodeResult
  | .rst bit => if bit = 1#1 then .instr .reset else .noTransaction
  | .sample b => decodeSample n b
  | .bus b => .instr (decodeBus b)
  | .event k => decodeEvent k

/-- The bundle of a bus operation with decode key `{we, addr}` (R73, R79). -/
def encodeBus (we : Bool) (addr : BitVec 8) (wdata : Word) : Option Transaction :=
  some (.bus (busBundle we addr wdata))

/-- The encoder. `SCALE` and `FIR` have no encoding: they are internal functions (R143, R170). -/
def encode : Instr → Option Transaction
  | .reset => some (.rst 1#1)
  | .write code => some (.sample (sampleBundle code))
  | .rdStatus wdata => encodeBus false 0x00#8 wdata
  | .rdSeq wdata => encodeBus false 0x04#8 wdata
  | .rdCtrl wdata => encodeBus false 0x08#8 wdata
  | .rdCfg wdata => encodeBus false 0x0C#8 wdata
  | .wrStatus wdata => encodeBus true 0x00#8 wdata
  | .wrSeq wdata => encodeBus true 0x04#8 wdata
  | .wrCtrl wdata => encodeBus true 0x08#8 wdata
  | .wrCfg wdata => encodeBus true 0x0C#8 wdata
  | .busErr we addr wdata => encodeBus we addr wdata
  | .start => some (.event kindStart)
  | .checkA => some (.event kindCheckA)
  | .checkB => some (.event kindCheckB)
  | .capture => some (.event kindCapture)
  | .compute => some (.event kindCompute)
  | .emit => some (.event kindEmit)
  | .scale _ => none
  | .fir _ _ => none

/-- A word of the opcode table up to one byte: an `EVT` row by its low four bits, else the `RST` bit (log 12). -/
def controlTransaction (w : Nat) : Transaction :=
  let k := BitVec.ofNat 4 w
  match decodeEvent k with
  | .instr _ => .event k
  | _ => .rst (BitVec.ofNat 1 w)

/-- The transaction a word of `nbits` bits of the opcode table stands for: the table's formats differ in length (`RST` and
`EVT` one byte, `SAMPLE` 17 bits in three, `BUS` 41 bits in six), so the length tells the port (log 12). -/
def transactionOfTableWord (nbits w : Nat) : Transaction :=
  if nbits ≤ 8 then controlTransaction w
  else if nbits ≤ 24 then .sample (BitVec.ofNat 17 w)
  else .bus (BitVec.ofNat 41 w)

/-- What the decoder, in the reference configuration, reads from a word numbered as the opcode table numbers it. -/
def decodeTableWord (nbits w : Nat) : Option Instr :=
  match decode Config.reference.codeWidth (transactionOfTableWord nbits w) with
  | .instr i => some i
  | .noTransaction => none
  | .sampleReservedBits _ => none
  | .noSuchEvent _ => none

end Sys2Proof
end

