-- ==== Sys2Proof/Machine/Schedule.lean ====
section
/-! DEFINITION. How the next step is chosen: the schedule of transactions (R10, R82), the sequencer's own step when
nothing is scheduled (R120, R250), and how a transaction is placed first. -/

namespace Sys2Proof.Machine

/-- The state with the first scheduled transaction taken off. -/
def State.popSched (s : State) : State := { s with sched := s.sched.tail }

/-- The one step the sequencer can take by itself in the state's phase (R120): `EMIT` needs the sink, and `START` needs
`IRQ`. -/
def State.sequencerStep (s : State) : Option Instr :=
  match s.phase with
  | .idle => if s.irq then some .start else none
  | .checkA => some .checkA
  | .checkB => some .checkB
  | .capture => some .capture
  | .compute => some .compute
  | .emit => none

/-- No agent steps, and nothing changes but what the schedule already lost. -/
def noStep (s : State) : Result := whenRunning s (.next s)

/-- A sample bundle with reserved bits set is refused (R71, R214). -/
def refuseSample (b : BitVec 17) (s : State) : Result := whenRunning s (.next (s.refuse (.sampleReservedBits b)))

/-- An event kind that names no sequencer step (R77, log 8). -/
def rejectEvent (k : BitVec 4) (s : State) : Result := whenRunning s (.refused (.noSuchEvent k))

/-- Sets what selects the sequencer's step of kind `k`: `PHASE`, which plays the part of the program counter (R20), and
for `START` a pending flag where none is set (R121). -/
def State.selectEvent (s : State) (k : BitVec 4) : State :=
  if k = kindStart then { s with phase := .idle, pendA := s.pendA || !s.pendB }
  else if k = kindCheckA then { s with phase := .checkA }
  else if k = kindCheckB then { s with phase := .checkB }
  else if k = kindCapture then { s with phase := .capture }
  else if k = kindCompute then { s with phase := .compute }
  else if k = kindEmit then { s with phase := .emit }
  else s

/-- Sets what the step of a transaction needs besides being scheduled. -/
def State.selectFor (s : State) : Transaction → State
  | .event k => s.selectEvent k
  | .rst _ => s
  | .sample _ => s
  | .bus _ => s

/-- Places a transaction first in the schedule. -/
def State.place (s : State) (t : Transaction) : State := { s.selectFor t with sched := t :: s.sched }

end Sys2Proof.Machine
end

