-- ==== Sys2Proof/Machine/Step.lean ====
section
/-! DEFINITION. One step of the machine, and placing an instruction where the step takes its next one. -/

namespace Sys2Proof.Machine

/-- One step: the first scheduled transaction is taken off and run. With nothing scheduled the sequencer takes its own
enabled step, or nothing happens (log 2). -/
def step (s : State) : Host.Outcome State Fault Refusal :=
  match s.sched with
  | [] =>
    match s.sequencerStep with
    | some i => exec i s
    | none => noStep s
  | t :: _ =>
    match decode s.cfg.codeWidth t with
    | .instr i => exec i s.popSched
    | .noTransaction => noStep s.popSched
    | .sampleReservedBits b => refuseSample b s.popSched
    | .noSuchEvent k => rejectEvent k s.popSched

/-- The state with an instruction of the opcode table placed as the very next transaction, and for a sequencer step the
phase that selects it (log 13). -/
def State.withFetchWord (s : State) (nbits w : Nat) : State := s.place (transactionOfTableWord nbits w)

end Sys2Proof.Machine
end

