-- ==== Sys2Proof/Machine/Script.lean ====
section
/-! DEFINITION. The transaction scripts of R82 and their pseudo-transactions (R83): a script is a schedule. -/

namespace Sys2Proof.Machine

/-- `RESET`. -/
def scriptReset : List Transaction := [.rst 1#1]

/-- `WRITES c0, …, ck`. -/
def scriptWrites (codes : List Code) : List Transaction := codes.map fun c => .sample (sampleBundle c)

/-- `FILL c xM`. -/
def scriptFill (c : Code) (m : Nat) : List Transaction := scriptWrites (List.replicate m c)

/-- `RD <offset>`. -/
def scriptRd (offset : BitVec 8) : List Transaction := [.bus (busBundle false offset 0#32)]

/-- `WR <offset>, <value>`. -/
def scriptWr (offset : BitVec 8) (value : Word) : List Transaction := [.bus (busBundle true offset value)]

/-- A step named by its kind, `M` times. -/
def scriptEvents (k : BitVec 4) (m : Nat) : List Transaction := List.replicate m (.event k)

/-- `PROCESS`: `CAPTURE xL`, `COMPUTE`, `EMIT xL`. -/
def scriptProcess (len : Nat) : List Transaction :=
  scriptEvents kindCapture len ++ scriptEvents kindCompute 1 ++ scriptEvents kindEmit len

/-- `SERVICE`: the whole invocation from `IDLE` in state `s`, with no other agent stepping. -/
def scriptService (s : State) : List Transaction :=
  scriptEvents kindStart 1 ++ scriptEvents kindCheckA 1 ++
  (if s.pendA then scriptProcess s.cfg.bufLen else []) ++
  scriptEvents kindCheckB 1 ++
  (if s.pendB then scriptProcess s.cfg.bufLen else [])

/-- The state with a script scheduled. -/
def State.withScript (s : State) (script : List Transaction) : State := { s with sched := script }

end Sys2Proof.Machine
end

