-- ==== Sys2Proof/Machine/Text.lean ====
section
/-! DEFINITION. The formatter's text form of a record (R203 to R205): the contract of the party behind the sink, outside
the block, given so that an end-to-end observation can be stated (log 20). -/

namespace Sys2Proof.Machine

/-- `n / d` rounded to the nearest integer, ties to even (R205). -/
def roundHalfEven (n d : Nat) : Nat :=
  let q := n / d
  let r := n % d
  if 2 * r < d then q
  else if d < 2 * r then q + 1
  else if q % 2 = 0 then q
  else q + 1

/-- `m` of R205: `|v| × 10^6` rounded. -/
def microUnits (v : Val) : Nat := roundHalfEven (v.num.natAbs * 1000000) v.den

/-- One decimal digit as its ASCII character. -/
def digitChar (d : Nat) : Char := Char.ofNat (48 + d % 10)

/-- The last `k` decimal digits of `n`, with leading zeros. -/
def fixedDigits : Nat → Nat → List Char
  | 0, _ => []
  | k + 1, n => fixedDigits k (n / 10) ++ [digitChar n]

/-- `n` in decimal with no leading zeros; the first argument bounds the recursion and is at least the digit count. -/
def decimalDigits : Nat → Nat → List Char
  | 0, n => [digitChar n]
  | k + 1, n => if n < 10 then [digitChar n] else decimalDigits k (n / 10) ++ [digitChar n]

/-- `dec6(v)` (R205). -/
def dec6 (v : Val) : List Char :=
  let m := microUnits v
  (if v < 0 then ['-'] else []) ++ decimalDigits m (m / 1000000) ++ ['.'] ++ fixedDigits 6 (m % 1000000)

/-- The text of one record (R203). -/
def recordText (u f : Val) : List Char := dec6 u ++ ['\t'] ++ dec6 f ++ ['\r', '\n']

/-- The one-time header record (R204), written by the surrounding software before the first record. -/
def headerText : List Char := "PA0_unfiltered\tPA0_filtered\r\n".toList

/-- The text of a stream of records in order, after the header. -/
def streamText (records : List (Val × Val)) : List Char :=
  headerText ++ records.flatMap fun r => recordText r.1 r.2

end Sys2Proof.Machine
end

