-- ==== Sys2Proof/Safety.lean ====
section
/-! DEFINITION. The terms claims are stated in: finite and infinite executions (R10), the fairness conditions (R250), the
invariant of R39, the premises `DEADLINE` and `NO_OVERRUN` (R245, R246), the quiescent point (R251), what a history shows,
and what "unchanged" covers. -/

namespace Sys2Proof.Machine

/-! ### Executions -/

/-- A finite execution (R10): the steps `is` lead from `s` to `t`, and each is taken in a state where `P` holds of that
state and that step. -/
def RunsTo (P : State → Instr → Prop) : List Instr → State → State → Prop
  | [], s, t => s = t
  | i :: is, s, t => P s i ∧ ∃ m, exec i s = .next m ∧ RunsTo P is m t

/-- An infinite execution (R10): in state `run n` the step `steps n` is taken, where `P` holds of the two, and gives
`run (n + 1)`. Whose step comes next is free at each point. With `RunsTo` this is every execution; an observation is about
a finite one, or about an infinite one that is `WeaklyFair` (R251). -/
def InfiniteRun (P : State → Instr → Prop) (run : Nat → State) (steps : Nat → Instr) : Prop :=
  ∀ n, P (run n) (steps n) ∧ exec (steps n) (run n) = .next (run (n + 1))

/-- The instruction is a step of an agent, in the event-kind table of R77: the two function rows are none, and a bundle
that is refused is none (R214). -/
def IsStep (s : State) (i : Instr) : Prop :=
  wellFormed s.cfg i = true ∧ (∀ c, i ≠ .scale c) ∧ (∀ h v, i ≠ .fir h v)

/-- The step is no `RESET`. -/
def NotReset (_ : State) (i : Instr) : Prop := i ≠ .reset

/-- `s` is a state right after a `RESET`, of whatever state it was taken in, or a new instance. -/
def FreshlyReset (s : State) : Prop := (∃ s0, exec .reset s0 = .next s) ∨ s = State.resetOf s.cfg

/-- Step `i` can be taken in state `s`. -/
def Enabled (i : Instr) (s : State) : Prop := ∃ t, exec i s = .next t

/-- From some point on `i` stays enabled only if it is taken. -/
def TakenIfItStaysEnabled (i : Instr) (run : Nat → State) (steps : Nat → Instr) : Prop :=
  ∀ n, (∀ m, n ≤ m → Enabled i (run m)) → ∃ m, n ≤ m ∧ steps m = i

/-- R250 (i): a sequencer step other than `EMIT` that stays enabled is eventually taken. -/
def WeaklyFair (run : Nat → State) (steps : Nat → Instr) : Prop :=
  ∀ i ∈ [Instr.start, .checkA, .checkB, .capture, .compute], TakenIfItStaysEnabled i run steps

/-- R250 (ii): the sink eventually accepts, so that an `EMIT` that stays enabled is eventually taken. The sink is under no
such duty (R252): a claim that needs it has it as a premise. -/
def SinkKeepsAccepting (run : Nat → State) (steps : Nat → Instr) : Prop := TakenIfItStaysEnabled .emit run steps

/-- The check of ready condition `x`, which acknowledges it (R122, R123). -/
def checkOf : Buf → Instr
  | .A => .checkA
  | .B => .checkB

/-- Step `i` in state `s` is the fill of `s.active`: the `WRITE` at the last index (R12, R101). -/
def Fills (s : State) (i : Instr) : Prop := (∃ c, i = .write c ∧ codeFits s.cfg.codeWidth c = true) ∧ s.fill + 1 = s.cfg.bufLen

/-- The sequencer is processing buffer `x`: between its acknowledge and its last `EMIT` (R128). -/
def State.processing (s : State) (x : Buf) : Prop :=
  (s.phase = .capture ∨ s.phase = .compute ∨ s.phase = .emit) ∧ s.cur = x

/-- `DEADLINE` (R245) at one step: when a fill comes, the processing of the fill before it, of the other buffer, has
handed over its last record; so that buffer is neither pending nor being processed (log 22). -/
def DeadlineMet (s : State) (i : Instr) : Prop :=
  Fills s i → s.pend s.active.other = false ∧ ¬ s.processing s.active.other

/-- The `corrupt` condition in the words of R102: buffer `ACTIVE` filled and was never acknowledged, or it is being captured
and element `FILL` has not been captured yet. -/
def Corrupts (s : State) : Prop :=
  s.pend s.active = true ∨ (s.phase = .capture ∧ s.cur = s.active ∧ s.j ≤ s.fill)

/-- `NO_OVERRUN` (R246) at one step: the step is no `WRITE` that meets the `corrupt` condition. -/
def NoOverrun (s : State) (i : Instr) : Prop := (∃ c, i = .write c) → ¬ Corrupts s

/-- The quiescent point (R251). -/
def State.quiescentPoint (s : State) : Prop := s.phase = .idle ∧ s.irq = false

/-! ### The invariant -/

/-- What every state reached from reset meets: R39 (i) to (vii), the ranges R21 gives the fields, and the facts they rest
on. It does not need `FAULTS` to be empty. -/
structure State.Inv (s : State) : Prop where
  /-- R5. -/
  cfg_valid : s.cfg.valid = true
  /-- The canonical form of both buffers. -/
  mem_wf : ∀ x, (s.buf x).wf = true
  /-- Every stored element lies inside its buffer and is a code (R22, R50). -/
  mem_code : ∀ (x : Buf) (i : Nat) (c : Code), (s.buf x).read i = some c → i < s.cfg.bufLen ∧ codeFits s.cfg.codeWidth c = true
  /-- R39 (i). -/
  fill_lt : s.fill < s.cfg.bufLen
  /-- The part of the active buffer this pass has stored. -/
  stored : ∀ i, i < s.fill → (s.buf s.active).read i ≠ none
  /-- R39 (vi). -/
  pend_full : ∀ x i, s.pend x = true → i < s.cfg.bufLen → (s.buf x).read i ≠ none
  /-- What `CAPTURE` reads is never ⊥ (R213). -/
  capture_full : s.phase = .capture → ∀ i, i < s.cfg.bufLen → (s.buf s.cur).read i ≠ none
  /-- R39 (ii). -/
  j_lt : s.phase = .capture → s.j < s.cfg.bufLen
  /-- R33. -/
  j_le : s.j ≤ s.cfg.bufLen
  /-- R39 (iii). -/
  e_lt : s.phase = .emit → s.e < s.cfg.bufLen
  /-- R36. -/
  e_le : s.e ≤ s.cfg.bufLen
  /-- R34. -/
  cap_len : s.cap.length = s.cfg.bufLen
  /-- Every captured entry is a code. -/
  cap_code : ∀ (i : Nat) (c : Code), s.cap[i]? = some (some c) → codeFits s.cfg.codeWidth c = true
  /-- The entries this capture has written. -/
  cap_part : s.phase = .capture → ∀ i : Nat, i < s.j → s.cap[i]? ≠ some none
  /-- R39 (iv). -/
  cap_full : s.phase = .compute ∨ s.phase = .emit → ∀ i : Nat, s.cap[i]? ≠ some none
  /-- R35. -/
  out_len : s.outU.length = s.cfg.bufLen ∧ s.outF.length = s.cfg.bufLen
  /-- R39 (v). -/
  out_full : s.phase = .emit → ∀ i : Nat, s.outU[i]? ≠ some none ∧ s.outF[i]? ≠ some none
  /-- R39 (vii). -/
  hist_len : s.hist.length = s.cfg.taps - 1

/-! ### What a history shows -/

/-- The ready events a history shows, the latest first (R72, R106). -/
def readyEvents : List Event → List Buf
  | [] => []
  | .write _ .readyA :: h => .A :: readyEvents h
  | .write _ .readyB :: h => .B :: readyEvents h
  | _ :: h => readyEvents h

/-- How many `WRITE` steps a history shows. -/
def writeCount : List Event → Nat
  | [] => 0
  | .write _ _ :: h => writeCount h + 1
  | _ :: h => writeCount h

/-- The codes a history shows as acquired, in the order they were written. -/
def acquiredCodes : List Event → List Code
  | [] => []
  | .write c _ :: h => acquiredCodes h ++ [c]
  | _ :: h => acquiredCodes h

/-- The records a history shows, in the order they were handed over (R146). -/
def recordsOf : List Event → List (Val × Val)
  | [] => []
  | .emit u f :: h => recordsOf h ++ [(u, f)]
  | _ :: h => recordsOf h

/-- A history, the latest first, whose ready events read from the oldest on are A, B, A, B, … ; `next` is the one due
after the latest (R106). -/
def Alternates : List Buf → Buf → Prop
  | [], next => next = .A
  | x :: xs, next => next = x.other ∧ Alternates xs x

/-- The scaled inputs of every block the steps `is` filter from state `s` on, concatenated in processing order: the stream
`u` of R144. -/
def processedStream : List Instr → State → List Val
  | [], _ => []
  | i :: is, s =>
    match exec i s with
    | .next t => (if i = .compute ∧ t.phase = .emit then s.scaledBlock else []) ++ processedStream is t
    | .fault _ => []
    | .refused _ => []

/-- `u[n - k]` of R144 with `u[m] = 0` for negative `m`. -/
def streamAt (u : List Val) (n k : Nat) : Val := if k ≤ n then u.getD (n - k) 0 else 0

/-! ### What "unchanged" covers -/

/-- Nothing of the Engine's is changed: every element of both buffers reads as before, and `ACTIVE`, `FILL`, the pending
flags and `SEQ` are as before. -/
def SameEngine (s t : State) : Prop :=
  (∀ x i, (t.buf x).read i = (s.buf x).read i) ∧ t.active = s.active ∧ t.fill = s.fill ∧
  t.pendA = s.pendA ∧ t.pendB = s.pendB ∧ t.seq = s.seq

/-- The sticky flags are as before. -/
def SameSticky (s t : State) : Prop := t.ovr = s.ovr ∧ t.range = s.range

/-- Nothing of the sequencer's is changed. -/
def SameSequencer (s t : State) : Prop :=
  t.phase = s.phase ∧ t.cur = s.cur ∧ t.j = s.j ∧ t.e = s.e

/-- Nothing of the Buffer Processor's storage is changed. -/
def SameStorage (s t : State) : Prop :=
  t.cap = s.cap ∧ t.outU = s.outU ∧ t.outF = s.outF ∧ t.hist = s.hist

/-- The parameters, `FAULTS`, what was refused, the schedule and the function result are as before. -/
def SameRest (s t : State) : Prop :=
  t.cfg = s.cfg ∧ t.faults = s.faults ∧ t.refusals = s.refusals ∧ t.sched = s.sched ∧ t.fnResult = s.fnResult

/-- The whole block is as before; only the history may differ. -/
def SameBlock (s t : State) : Prop :=
  SameEngine s t ∧ SameSticky s t ∧ SameSequencer s t ∧ SameStorage s t ∧ SameRest s t ∧ t.freeCtr = s.freeCtr

end Sys2Proof.Machine
end

