-- ==== Sys2Proof/Certificates/Slice0/Obligations.lean ====
section
/-! DEFINITION. The statements for the provers. Each is about the machine, in every configuration and every state that
meets its hypotheses. `exec i s = .next t` is a step that is taken; a step row needs `FAULTS` empty (R37). -/

open Sys2Proof Sys2Proof.Machine

/-! ### Encodings -/

/-- R79, the whole rule: the bus rows in their order by `K` = bundle[40:32] alone, the sample port, the reset input,
and the record transfer (the event kind 0x9 of R77). -/
def Obligations.PortDecodeFollowsTheTable : Prop :=
  (∀ (n : Nat) (b : BitVec 41),
    let K : Nat := b.toNat / 2 ^ 32
    let wdata : Word := BitVec.ofNat 32 b.toNat
    (K = 0x000 → decode n (.bus b) = .instr (.rdStatus wdata)) ∧
    (K = 0x004 → decode n (.bus b) = .instr (.rdSeq wdata)) ∧
    (K = 0x008 → decode n (.bus b) = .instr (.rdCtrl wdata)) ∧
    (K = 0x00C → decode n (.bus b) = .instr (.rdCfg wdata)) ∧
    (K = 0x100 → decode n (.bus b) = .instr (.wrStatus wdata)) ∧
    (K = 0x104 → decode n (.bus b) = .instr (.wrSeq wdata)) ∧
    (K = 0x108 → decode n (.bus b) = .instr (.wrCtrl wdata)) ∧
    (K = 0x10C → decode n (.bus b) = .instr (.wrCfg wdata)) ∧
    (K ∉ [0x000, 0x004, 0x008, 0x00C, 0x100, 0x104, 0x108, 0x10C] →
      decode n (.bus b) = .instr (.busErr (decide (0x100 ≤ K)) (BitVec.ofNat 8 K) wdata))) ∧
  (∀ (n : Nat) (b : BitVec 17),
    let valid : Nat := b.toNat / 2 ^ 16
    let code : Nat := b.toNat % 2 ^ 16
    (valid = 0 → decode n (.sample b) = .noTransaction) ∧
    (valid = 1 → code < 2 ^ n → decode n (.sample b) = .instr (.write (BitVec.ofNat 16 code))) ∧
    (valid = 1 → ¬ code < 2 ^ n → decode n (.sample b) = .sampleReservedBits b)) ∧
  (∀ n : Nat, decode n (.rst 1#1) = .instr .reset ∧ decode n (.rst 0#1) = .noTransaction ∧
    decode n (.event 0x9#4) = .instr .emit)

/-- Words written out bit by bit from the rules of the formats (R71, R73, R76, R77), one of each kind of row. -/
def Obligations.WordsDecodeAsTheFormatsSay : Prop :=
  decodeTableWord 8 0x1 = some .reset ∧
  decodeTableWord 24 0x1000F = some (.write 15#16) ∧
  decodeTableWord 24 0x0000F = none ∧
  decodeTableWord 24 0x11000 = none ∧
  decodeTableWord 48 0x00000000000 = some (.rdStatus 0#32) ∧
  decodeTableWord 48 0x00C00000000 = some (.rdCfg 0#32) ∧
  decodeTableWord 48 0x10800000003 = some (.wrCtrl 3#32) ∧
  decodeTableWord 48 0x10E00000001 = some (.busErr true 0x0E#8 1#32) ∧
  decodeTableWord 8 0x4 = some .start ∧
  decodeTableWord 8 0x9 = some .emit

/-- Every well-formed instruction with an encoding is read back from it, whatever its operands; the two function rows are
the ones without an encoding. -/
def Obligations.DecodeReadsBackEveryEncoding : Prop :=
  ∀ (c : Config) (i : Instr),
    (∀ t, wellFormed c i = true → encode i = some t → decode c.codeWidth t = .instr i) ∧
    (encode i = none ↔ (∃ code, i = .scale code) ∨ (∃ h v, i = .fir h v))

/-- The other direction: what the decoder reads is well formed and encodes back to the very transaction it came from. -/
def Obligations.EveryDecodedTransactionEncodesBack : Prop :=
  ∀ (c : Config) (t : Transaction) (i : Instr),
    decode c.codeWidth t = .instr i → wellFormed c i = true ∧ encode i = some t

/-! ### The step -/

/-- The step runs the decoded instruction: the first scheduled transaction is taken off the schedule and its instruction is
executed in the state that leaves. -/
def Obligations.StepRunsTheDecodedInstruction : Prop :=
  ∀ (s : State) (t : Transaction) (rest : List Transaction) (i : Instr),
    s.sched = t :: rest → decode s.cfg.codeWidth t = .instr i → step s = exec i { s with sched := rest }

/-- MODEL'S CHOICE (log 2, log 8): with nothing scheduled, the sequencer takes the one step R120 enables in its phase, other
than `EMIT`; where it has none, and on a bundle that is no transaction, nothing changes. A scheduled event kind that names no
sequencer step (0x0 to 0x3, whose steps come as a port bundle, and the reserved 0xA to 0xF, R77) is refused by name. -/
def Obligations.StepWithoutATransaction : Prop :=
  ∀ s : State, s.faults = [] →
    (s.sched = [] → s.phase = .idle → s.irq = true → step s = exec .start s) ∧
    (s.sched = [] → s.phase = .idle → s.irq = false → step s = .next s) ∧
    (s.sched = [] → s.phase = .checkA → step s = exec .checkA s) ∧
    (s.sched = [] → s.phase = .checkB → step s = exec .checkB s) ∧
    (s.sched = [] → s.phase = .capture → step s = exec .capture s) ∧
    (s.sched = [] → s.phase = .compute → step s = exec .compute s) ∧
    (s.sched = [] → s.phase = .emit → step s = .next s) ∧
    (∀ t rest, s.sched = t :: rest → decode s.cfg.codeWidth t = .noTransaction →
      step s = .next { s with sched := rest }) ∧
    (∀ k rest, s.sched = .event k :: rest → k.toNat < 0x4 ∨ 0xA ≤ k.toNat → step s = .refused (.noSuchEvent k))

/-- R214: a sample bundle with `VALID` = 1 and a reserved bit set is refused: the run is marked refused with the bundle
recorded, and nothing of the block changes. -/
def Obligations.ReservedSampleBitsAreRefused : Prop :=
  ∀ (s : State) (b : BitVec 17) (rest : List Transaction),
    s.faults = [] → s.sched = .sample b :: rest → b.toNat / 2 ^ 16 = 1 → ¬ b.toNat % 2 ^ 16 < 2 ^ s.cfg.codeWidth →
    ∃ t, step s = .next t ∧ t.isRefused = true ∧ t.refusals = s.refusals ++ [.sampleReservedBits b] ∧
      SameEngine s t ∧ SameSticky s t ∧ SameSequencer s t ∧ SameStorage s t ∧
      t.cfg = s.cfg ∧ t.faults = s.faults ∧ t.sched = rest ∧ t.fnResult = s.fnResult ∧ t.history = s.history

/-! ### Creation and reset -/

/-- R5, R211, R217: an instance is created exactly for a configuration that meets every condition of R5; any other is refused
with `CFG_INVALID`, which records exactly the conditions that fail. No step checks the configuration again (log 19,
DEDUCED): that no step is defined for an invalid one is said here by there being no instance to take it. -/
def Obligations.InvalidConfigurationsAreRefused : Prop :=
  ∀ c : Config,
    let ok : ConfigCondition → Prop
      | .bufLen => 1 ≤ c.bufLen ∧ c.bufLen ≤ 65535
      | .taps => 1 ≤ c.taps ∧ c.taps ≤ 4095
      | .coeffLength => c.coeff.length = c.taps
      | .codeWidth => 1 ≤ c.codeWidth ∧ c.codeWidth ≤ 16
      | .maxCode => 1 ≤ c.maxCode ∧ c.maxCode ≤ 2 ^ c.codeWidth - 1
      | .vref => 0 < c.vref
    ((∀ k, ok k) → State.create c = .next (State.resetOf c) ∧ (State.resetOf c).hist.length = c.taps - 1) ∧
    (¬ (∀ k, ok k) → ∃ ks, State.create c = .refused (.cfgInvalid ks) ∧ ∀ k, k ∈ ks ↔ ¬ ok k)

/-- R240: `RESET` in any state with `FAULTS` empty completes and gives every field the value of R21, keeping `FAULTS` and
`REFUSED`. -/
def Obligations.ResetGivesEveryFieldItsValue : Prop :=
  ∀ s : State, s.faults = [] →
    ∃ t, exec .reset s = .next t ∧
      (∀ x i, (t.buf x).read i = none) ∧ t.active = .A ∧ t.fill = 0 ∧ t.pendA = false ∧ t.pendB = false ∧
      t.seq = 0#32 ∧ t.ovr = false ∧ t.range = false ∧
      t.hist = List.replicate (s.cfg.taps - 1) 0 ∧ t.phase = .idle ∧ t.cur = .A ∧ t.j = 0 ∧ t.e = 0 ∧
      t.cap = List.replicate s.cfg.bufLen none ∧ t.outU = List.replicate s.cfg.bufLen none ∧
      t.outF = List.replicate s.cfg.bufLen none ∧
      SameRest s t ∧ t.freeCtr = s.freeCtr ∧ t.history = .reset :: s.history

/-- The invariant holds right after reset, of every valid configuration and of `State.reset`. -/
def Obligations.ResetMeetsTheInvariant : Prop :=
  (∀ c : Config, c.valid = true → (State.resetOf c).Inv) ∧ State.reset.Inv

/-! ### The Engine -/

/-- R101 (with the wrap of R103): `WRITE c` completes in every state with `FAULTS` empty, whatever the sequencer does. It
stores at (ACTIVE, FILL) and nowhere else, sets `OVR` exactly on the `corrupt` condition, and on the fill marks the buffer
pending, counts and swaps. -/
def Obligations.WriteStoresAndSwapsOnFill : Prop :=
  ∀ (s : State) (c : Code), s.faults = [] → c.toNat < 2 ^ s.cfg.codeWidth → s.fill < s.cfg.bufLen →
    ∃ t, exec (.write c) s = .next t ∧
      (t.buf s.active).read s.fill = some c ∧
      (∀ x i, ¬ (x = s.active ∧ i = s.fill) → (t.buf x).read i = (s.buf x).read i) ∧
      (t.ovr = true ↔ s.ovr = true ∨ s.pend s.active = true ∨
        (s.phase = .capture ∧ s.cur = s.active ∧ s.fill ≥ s.j)) ∧
      (s.fill = s.cfg.bufLen - 1 →
        t.fill = 0 ∧ t.pend s.active = true ∧ t.pend s.active.other = s.pend s.active.other ∧
        t.seq.toNat = (s.seq.toNat + 1) % 2 ^ 32 ∧ t.active = s.active.other ∧
        t.history = .write c (if s.active = .A then .readyA else .readyB) :: s.history) ∧
      (s.fill ≠ s.cfg.bufLen - 1 →
        t.fill = s.fill + 1 ∧ t.pendA = s.pendA ∧ t.pendB = s.pendB ∧ t.seq = s.seq ∧ t.active = s.active ∧
        t.history = .write c .none :: s.history) ∧
      t.range = s.range ∧ SameSequencer s t ∧ SameStorage s t ∧ SameRest s t ∧ t.freeCtr = s.freeCtr

/-- R22: only `WRITE` (and `RESET`) changes an element, and `WRITE` only the one at index `FILL` of the active buffer. -/
def Obligations.OnlyWriteChangesABuffer : Prop :=
  ∀ (s t : State) (i : Instr), exec i s = .next t → i ≠ .reset →
    ∀ x k, (t.buf x).read k ≠ (s.buf x).read k → (∃ c, i = .write c) ∧ x = s.active ∧ k = s.fill

/-- R102: a code the sequencer has not read yet and will read, in a pending buffer or at or after `J` in the buffer being
captured, is overwritten by no step but a `WRITE` that meets the `corrupt` condition, and that one sets `OVR`. -/
def Obligations.UnreadCodesChangeOnlyUnderOvr : Prop :=
  ∀ (s t : State) (i : Instr) (x : Buf) (k : Nat), exec i s = .next t → i ≠ .reset →
    (s.pend x = true ∨ (s.phase = .capture ∧ s.cur = x ∧ s.j ≤ k)) →
    (t.buf x).read k ≠ (s.buf x).read k → (∃ c, i = .write c) ∧ Corrupts s ∧ t.ovr = true

/-- R106: from any `RESET` on, the ready events are A, B, A, B, …, whatever the other agents do. -/
def Obligations.ReadyEventsAlternateFromReset : Prop :=
  ∀ (s0 s t : State) (is : List Instr), exec .reset s0 = .next s → RunsTo NotReset is s t →
    ∃ h, t.history = h ++ s.history ∧ Alternates (readyEvents h) t.active

/-- R107: the k-th fill after any `RESET` is the (k·L)-th `WRITE` after it, of A when k is odd and of B when k is even, and
`SEQ` reads k modulo 2^32 after it. In every state reached from the reset, with `h` the history since and k its fills: `FILL`
`WRITE`s came after the (k·L)-th, and none where the latest entry of `h` is the k-th fill itself. -/
def Obligations.FillsComeEveryLWrites : Prop :=
  ∀ (s t : State) (is : List Instr), FreshlyReset s → s.cfg.valid = true → RunsTo NotReset is s t →
    ∃ h, t.history = h ++ s.history ∧
    let k := (readyEvents h).length
    writeCount h = k * s.cfg.bufLen + t.fill ∧ t.fill < s.cfg.bufLen ∧
    (∀ d ev h', h = .write d ev :: h' → ev ≠ .none → writeCount h = k * s.cfg.bufLen) ∧
    t.seq.toNat = k % 2 ^ 32 ∧
    (∀ x xs, readyEvents h = x :: xs → (x = .A ↔ k % 2 = 1))

/-! ### The Dispatcher -/

/-- R121: `START` is taken exactly in `IDLE` while a condition is pending, and moves `PHASE` to `CHECK_A` and nothing
else. In any other phase it is not enabled, so invocations never nest. -/
def Obligations.StartIsEnabledExactlyWhenIdleAndPending : Prop :=
  ∀ s : State, s.faults = [] →
    (s.phase = .idle ∧ (s.pendA = true ∨ s.pendB = true) →
      ∃ t, exec .start s = .next t ∧ t.phase = .checkA ∧ t.cur = s.cur ∧ t.j = s.j ∧ t.e = s.e ∧
        SameEngine s t ∧ SameSticky s t ∧ SameStorage s t ∧ SameRest s t ∧ t.freeCtr = s.freeCtr ∧
        t.history = .start :: s.history) ∧
    (¬ (s.phase = .idle ∧ (s.pendA = true ∨ s.pendB = true)) → exec .start s = .refused (.notEnabled 0x4#4))

/-- R122: `CHECK_A`, enabled exactly in its phase. -/
def Obligations.CheckAAcknowledgesOrGoesOn : Prop :=
  ∀ s : State, s.faults = [] →
    (s.phase = .checkA →
      ∃ t, exec .checkA s = .next t ∧
        (s.pendA = true → t.pendA = false ∧ t.cur = .A ∧ t.j = 0 ∧ t.phase = .capture) ∧
        (s.pendA = false → t.pendA = false ∧ t.cur = s.cur ∧ t.j = s.j ∧ t.phase = .checkB) ∧
        (∀ x i, (t.buf x).read i = (s.buf x).read i) ∧ t.active = s.active ∧ t.fill = s.fill ∧ t.pendB = s.pendB ∧
        t.seq = s.seq ∧ t.e = s.e ∧ SameSticky s t ∧ SameStorage s t ∧ SameRest s t ∧ t.freeCtr = s.freeCtr ∧
        t.history = .checkA :: s.history) ∧
    (s.phase ≠ .checkA → exec .checkA s = .refused (.notEnabled 0x5#4))

/-- R123: `CHECK_B`, enabled exactly in its phase. -/
def Obligations.CheckBAcknowledgesOrEnds : Prop :=
  ∀ s : State, s.faults = [] →
    (s.phase = .checkB →
      ∃ t, exec .checkB s = .next t ∧
        (s.pendB = true → t.pendB = false ∧ t.cur = .B ∧ t.j = 0 ∧ t.phase = .capture) ∧
        (s.pendB = false → t.pendB = false ∧ t.cur = s.cur ∧ t.j = s.j ∧ t.phase = .idle) ∧
        (∀ x i, (t.buf x).read i = (s.buf x).read i) ∧ t.active = s.active ∧ t.fill = s.fill ∧ t.pendA = s.pendA ∧
        t.seq = s.seq ∧ t.e = s.e ∧ SameSticky s t ∧ SameStorage s t ∧ SameRest s t ∧ t.freeCtr = s.freeCtr ∧
        t.history = .checkB :: s.history) ∧
    (s.phase ≠ .checkB → exec .checkB s = .refused (.notEnabled 0x6#4))

/-- R120: the transitions of the sequencer are exactly these. A step that raises a fault moves nothing (R37). -/
def Obligations.SequencerMovesOnlyAlongItsTable : Prop :=
  ∀ (s t : State) (i : Instr), exec i s = .next t → i ≠ .reset → t.faults = [] →
    (i = .start ∧ s.phase = .idle ∧ t.phase = .checkA) ∨
    (i = .checkA ∧ s.phase = .checkA ∧ t.phase = if s.pendA then .capture else .checkB) ∨
    (i = .checkB ∧ s.phase = .checkB ∧ t.phase = if s.pendB then .capture else .idle) ∨
    (i = .capture ∧ s.phase = .capture ∧ t.phase = if s.j + 1 < s.cfg.bufLen then .capture else .compute) ∨
    (i = .compute ∧ s.phase = .compute ∧ t.phase = .emit) ∨
    (i = .emit ∧ s.phase = .emit ∧
      t.phase = if s.e + 1 < s.cfg.bufLen then .emit else if s.cur = .A then .checkB else .idle) ∨
    (i ∉ [.start, .checkA, .checkB, .capture, .compute, .emit] ∧ t.phase = s.phase)

/-- R25 and R219: a ready condition is set only by the fill of its buffer, and cleared only by the check of its buffer
(and by `RESET`). -/
def Obligations.PendingFlagsHaveOneSetterAndOneClearer : Prop :=
  ∀ (s t : State) (i : Instr), exec i s = .next t → i ≠ .reset →
    (∀ x, s.pend x = false → t.pend x = true → Fills s i ∧ x = s.active) ∧
    (s.pendA = true → t.pendA = false → i = .checkA) ∧ (s.pendB = true → t.pendB = false → i = .checkB)

/-! ### The Buffer Processor -/

/-- R141: `CAPTURE`, enabled exactly in its phase, reads whatever `BUF[CUR][J]` holds when it runs, and raises
`UNWRITTEN_READ` where that is ⊥. -/
def Obligations.CaptureReadsTheElementAtJ : Prop :=
  ∀ s : State, s.faults = [] →
    (s.phase ≠ .capture → exec .capture s = .refused (.notEnabled 0x7#4)) ∧
    (s.phase = .capture → s.j < s.cfg.bufLen → s.cap.length = s.cfg.bufLen →
      ((s.buf s.cur).read s.j = none → exec .capture s =
        .next { s with faults := [.unwrittenRead s.cur s.j], history := .capture :: s.history }) ∧
      (∀ c, (s.buf s.cur).read s.j = some c →
        ∃ t, exec .capture s = .next t ∧
          t.cap[s.j]? = some (some c) ∧ (∀ k, k ≠ s.j → t.cap[k]? = s.cap[k]?) ∧ t.j = s.j + 1 ∧
          (s.j + 1 = s.cfg.bufLen → t.phase = .compute) ∧ (s.j + 1 ≠ s.cfg.bufLen → t.phase = .capture) ∧
          t.cur = s.cur ∧ t.e = s.e ∧ SameEngine s t ∧ SameSticky s t ∧
          t.outU = s.outU ∧ t.outF = s.outF ∧ t.hist = s.hist ∧ SameRest s t ∧ t.freeCtr = s.freeCtr ∧
          t.history = .capture :: s.history))

/-- R213: `CAPTURE` of an element that holds ⊥ raises `UNWRITTEN_READ` with `CUR` and `J`; of the block's state the step
writes nothing else, it is recorded as the step it is (R77), and no step follows. -/
def Obligations.CaptureOfAnUnwrittenElementFaults : Prop :=
  ∀ s : State, s.faults = [] → s.phase = .capture → s.j < s.cfg.bufLen → (s.buf s.cur).read s.j = none →
    let t := { s with faults := [.unwrittenRead s.cur s.j], history := .capture :: s.history }
    exec .capture s = .next t ∧ step t = .fault .quiescent

/-- R142: `COMPUTE`, enabled exactly in its phase, on `L` captured codes. A code above `MAX_CODE` is a fault under the
policy `fault`, and the step then writes nothing of the block's state but `FAULTS`. Else it scales, filters with the carried delay line, keeps
the new delay line, and sets `RANGE` exactly when a code is above `MAX_CODE`. -/
def Obligations.ComputeScalesAndFiltersTheBlock : Prop :=
  ∀ (s : State) (codes : List Code), s.faults = [] →
    (s.phase ≠ .compute → exec .compute s = .refused (.notEnabled 0x8#4)) ∧
    (s.phase = .compute → s.cap = codes.map some → codes.length = s.cfg.bufLen →
      let above := ∃ c ∈ codes, s.cfg.maxCode < c.toNat
      let V := codes.map (scaleFn s.cfg)
      (above → s.cfg.rangePolicy = .fault → ∃ k c, exec .compute s =
        .next { s with faults := [.codeRange k c], history := .compute :: s.history }) ∧
      (¬ above ∨ s.cfg.rangePolicy = .compute →
        ∃ t, exec .compute s = .next t ∧
          t.outU = V.map some ∧ t.outF = (firBlock s.cfg s.hist V).1.map some ∧
          t.hist = (firBlock s.cfg s.hist V).2 ∧ t.e = 0 ∧ t.phase = .emit ∧
          (t.range = true ↔ s.range = true ∨ above) ∧
          SameEngine s t ∧ t.ovr = s.ovr ∧ t.cur = s.cur ∧ t.j = s.j ∧ t.cap = s.cap ∧ SameRest s t ∧
          t.history = .compute :: s.history))

/-- R212, with R211, R142 and R173: under `RANGE_POLICY = fault`, a captured code above `MAX_CODE` makes `COMPUTE` raise
`CODE_RANGE` with the least such index and its code; of the block's state the step writes nothing but `FAULTS`. Under
`compute` no fault is raised, `RANGE` is set, and every code is scaled by the same formula. -/
def Obligations.CodeAboveMaxFaultsUnderThatPolicy : Prop :=
  ∀ (s : State) (codes : List Code) (k : Nat) (c : Code), s.faults = [] → s.phase = .compute →
    s.cap = codes.map some → codes.length = s.cfg.bufLen →
    codes[k]? = some c → s.cfg.maxCode < c.toNat →
    (∀ m d, m < k → codes[m]? = some d → d.toNat ≤ s.cfg.maxCode) →
    (s.cfg.rangePolicy = .fault →
      exec .compute s = .next { s with faults := [.codeRange k c], history := .compute :: s.history }) ∧
    (s.cfg.rangePolicy = .compute → ∃ t, exec .compute s = .next t ∧ t.faults = [] ∧ t.range = true ∧
      t.outU = (codes.map (scaleFn s.cfg)).map some)

/-- MODEL'S CHOICE (log 9): `COMPUTE` and `EMIT` complete in every state of their phase, also where an entry they read holds
⊥, which the spec rules out (R39); the value they then use is free. -/
def Obligations.ComputeAndEmitCompleteOnAnyStorage : Prop :=
  ∀ s : State, s.faults = [] →
    (s.phase = .compute → ∃ t, exec .compute s = .next t ∧
      ((t.phase = .emit ∧ t.e = 0 ∧ t.outU.length = s.cfg.bufLen ∧ t.outF.length = s.cfg.bufLen ∧
        t.hist.length = s.cfg.taps - 1 ∧ t.faults = []) ∨
       (∃ k c, t = { s with faults := [.codeRange k c], history := .compute :: s.history }))) ∧
    (s.phase = .emit → s.e < s.cfg.bufLen → ∃ t u f, exec .emit s = .next t ∧ t.e = s.e + 1 ∧
      t.history = .emit u f :: s.history)

/-- R143: every output is `DOT_FN` of the coefficients and the window of the carried history and the block, which with the
default numerics (R148) is the direct-form sum; the new delay line is the last `T - 1` entries of the two together. -/
def Obligations.FirBlockIsTheDirectFormSum : Prop :=
  ∀ (c : Config) (H V : List Val), 1 ≤ c.taps → c.coeff.length = c.taps → H.length = c.taps - 1 →
    (firBlock c H V).1.length = V.length ∧
    (∀ i, i < V.length →
      let window := (List.range c.taps).map fun k => (H ++ V).getD (c.taps - 1 + i - k) 0
      (firBlock c H V).1[i]? = some (dotFn c c.coeff window) ∧
      (c.numerics = .exact → dotFn c c.coeff window =
        ∑ k ∈ Finset.range c.taps, c.coeff.getD k 0 * (H ++ V).getD (c.taps - 1 + i - k) 0)) ∧
    (firBlock c H V).2.length = c.taps - 1 ∧
    (∀ m, m < c.taps - 1 → (firBlock c H V).2[m]? = (H ++ V)[V.length + m]?)

/-- R149 (d): block boundaries are invisible. Filtering two blocks one after the other gives the outputs and the delay line
of filtering them as one, whatever the numerics. -/
def Obligations.FilteringIsContinuousAcrossBlocks : Prop :=
  ∀ (c : Config) (H V W : List Val), 1 ≤ c.taps → H.length = c.taps - 1 →
    (firBlock c H (V ++ W)).1 = (firBlock c H V).1 ++ (firBlock c (firBlock c H V).2 W).1 ∧
    (firBlock c H (V ++ W)).2 = (firBlock c (firBlock c H V).2 W).2

/-- R149 (a) and (b): with exact numerics, an output whose whole window equals `v` is `v` when the coefficients sum to 1,
and with all coefficients `1/T` every output is the mean of its window. -/
def Obligations.FilterOutputIsAWeightedMean : Prop :=
  ∀ (c : Config) (H V : List Val) (i : Nat), c.numerics = .exact → 1 ≤ c.taps → c.coeff.length = c.taps →
    H.length = c.taps - 1 → i < V.length →
    (∀ v, c.coeff.sum = 1 → (∀ k, k < c.taps → (H ++ V).getD (c.taps - 1 + i - k) 0 = v) →
      (firBlock c H V).1[i]? = some v) ∧
    (c.coeff = List.replicate c.taps (1 / (c.taps : Val)) →
      (firBlock c H V).1[i]? =
        some ((∑ k ∈ Finset.range c.taps, (H ++ V).getD (c.taps - 1 + i - k) 0) / (c.taps : Val)))

/-- R149 (c): with exact numerics and a zero delay line, scaling every input by `k` scales every output by `k`. -/
def Obligations.FilteringIsLinear : Prop :=
  ∀ (c : Config) (V : List Val) (k : Val), c.numerics = .exact →
    let zero : List Val := List.replicate (c.taps - 1) 0
    (firBlock c zero (V.map (k * ·))).1 = (firBlock c zero V).1.map (k * ·) ∧
    (firBlock c zero (V.map (k * ·))).2 = (firBlock c zero V).2.map (k * ·)

/-- R145: `EMIT`, enabled exactly in its phase once the sink accepts (which is what taking the step means, R200), hands over
the pair (OUT_U[E], OUT_F[E]) and moves on, after the last record to `CHECK_B` from buffer A and to `IDLE` from buffer B. -/
def Obligations.EmitHandsOverRecordE : Prop :=
  ∀ s : State, s.faults = [] →
    (s.phase ≠ .emit → exec .emit s = .refused (.notEnabled 0x9#4)) ∧
    (∀ u f : Val, s.phase = .emit → s.e < s.cfg.bufLen → s.outU[s.e]? = some (some u) → s.outF[s.e]? = some (some f) →
      ∃ t, exec .emit s = .next t ∧ t.history = .emit u f :: s.history ∧ t.e = s.e + 1 ∧
        (s.e + 1 = s.cfg.bufLen → s.cur = .A → t.phase = .checkB) ∧
        (s.e + 1 = s.cfg.bufLen → s.cur = .B → t.phase = .idle) ∧
        (s.e + 1 ≠ s.cfg.bufLen → t.phase = .emit) ∧
        t.cur = s.cur ∧ t.j = s.j ∧ SameEngine s t ∧ SameSticky s t ∧ SameStorage s t ∧ SameRest s t)

/-- R38: the outputs are functions of the state, and what `EMIT` hands over is what `REC_U` and `REC_F` show. -/
def Obligations.OutputsAreFunctionsOfTheState : Prop :=
  ∀ s : State,
    (s.irq = true ↔ s.pendA = true ∨ s.pendB = true) ∧ (s.recValid = true ↔ s.phase = .emit) ∧
    (∀ o, s.outU[s.e]? = some o → s.recU = o) ∧ (∀ o, s.outF[s.e]? = some o → s.recF = o) ∧
    (∀ u f, s.recU = some u → s.recF = some f → s.faults = [] → s.phase = .emit → s.e < s.cfg.bufLen →
      ∃ t, exec .emit s = .next t ∧ t.history = .emit u f :: s.history)

/-- R147: only `COMPUTE` and `RESET` write the delay line; it is never reset at a buffer boundary. -/
def Obligations.OnlyComputeAndResetWriteHist : Prop :=
  ∀ (s t : State) (i : Instr), exec i s = .next t → i ≠ .compute → i ≠ .reset → t.hist = s.hist

/-- The table's row `FIR` (R143): it completes on every pair of operands of the type the rule gives them, answers
`fir_block` of them, and changes nothing of the block. Where the answer is kept, and that the row needs no enabling, is
MODEL'S CHOICE (log 15). -/
def Obligations.FirRowAnswersTheBlockFilter : Prop :=
  ∀ (s : State) (H V : List Val), H.length = s.cfg.taps - 1 → V.length = s.cfg.bufLen →
    ∃ t, exec (.fir H V) s = .next t ∧ t.fnResult = .filtered (firBlock s.cfg H V).1 (firBlock s.cfg H V).2 ∧
      SameEngine s t ∧ SameSticky s t ∧ SameSequencer s t ∧ SameStorage s t ∧ t.cfg = s.cfg ∧ t.faults = s.faults ∧
      t.refusals = s.refusals ∧ t.sched = s.sched ∧ t.freeCtr = s.freeCtr ∧ t.history = s.history

/-! ### The scaler -/

/-- R170 and R174: the table's row `SCALE` completes on every code, answers `SCALE_FN` of it, which under the default
numerics is `(c × VREF) / MAX_CODE`, and changes nothing of the block. Where the answer is kept, and that the row needs no
enabling, is MODEL'S CHOICE (log 15). -/
def Obligations.ScaleRowAnswersTheVoltage : Prop :=
  ∀ (s : State) (c : Code), c.toNat < 2 ^ s.cfg.codeWidth →
    ∃ t, exec (.scale c) s = .next t ∧ t.fnResult = .scaled (scaleFn s.cfg c) ∧
      (s.cfg.numerics = .exact → 1 ≤ s.cfg.maxCode →
        t.fnResult = .scaled (((c.toNat : Val) * s.cfg.vref) / (s.cfg.maxCode : Val))) ∧
      SameEngine s t ∧ SameSticky s t ∧ SameSequencer s t ∧ SameStorage s t ∧ t.cfg = s.cfg ∧ t.faults = s.faults ∧
      t.refusals = s.refusals ∧ t.sched = s.sched ∧ t.freeCtr = s.freeCtr ∧ t.history = s.history

/-- R171 and R172, under the default numerics: 0 maps to 0, `MAX_CODE` to `VREF`, and the map is strictly increasing. -/
def Obligations.ScalerEndPointsAndMonotonicity : Prop :=
  ∀ c : Config, c.valid = true → c.numerics = .exact →
    scaleFn c 0#16 = 0 ∧ scaleFn c (BitVec.ofNat 16 c.maxCode) = c.vref ∧
    (∀ a b : Code, a.toNat ≤ b.toNat → scaleFn c a ≤ scaleFn c b) ∧
    (∀ a b : Code, a.toNat < b.toNat → scaleFn c a < scaleFn c b)

/-! ### The register bus -/

/-- R41: every field of `STATUS` in its place. -/
def Obligations.StatusFieldsAreInTheirPlaces : Prop :=
  ∀ s : State,
    let w := s.statusWord
    w.getLsbD 0 = s.pendA ∧ w.getLsbD 1 = s.pendB ∧ w.getLsbD 2 = decide (s.active = .B) ∧
    w.getLsbD 3 = decide (s.cur = .B) ∧
    (w.toNat / 2 ^ 4) % 2 ^ 3 = (match s.phase with
      | .idle => 0 | .checkA => 1 | .checkB => 2 | .capture => 3 | .compute => 4 | .emit => 5) ∧
    w.getLsbD 7 = (s.pendA || s.pendB) ∧ w.getLsbD 8 = s.ovr ∧ w.getLsbD 9 = s.range ∧
    (w.toNat / 2 ^ 10) % 2 ^ 6 = 0 ∧ (s.fill < 2 ^ 16 → w.toNat / 2 ^ 16 = s.fill)

/-- R44: every field of `CFG` in its place, and the rule's own example. -/
def Obligations.CfgFieldsAreInTheirPlaces : Prop :=
  (∀ c : Config, c.valid = true →
    (cfgWord c).toNat % 2 ^ 16 = c.bufLen ∧ ((cfgWord c).toNat / 2 ^ 16) % 2 ^ 12 = c.taps ∧
    (cfgWord c).toNat / 2 ^ 28 = c.codeWidth - 1) ∧
  cfgWord Config.reference = 0xB01D0010#32

/-- R181 to R184: the four register reads complete in every state with `FAULTS` empty, answer `OKAY` with the register's
value at that moment, and change nothing. -/
def Obligations.RegisterReadsAnswerAndChangeNothing : Prop :=
  ∀ (s : State) (w : Word), s.faults = [] →
    (∃ t, exec (.rdStatus w) s = .next t ∧ SameBlock s t ∧
      t.history = .busRd (busBundle false 0x00#8 w) ⟨false, s.statusWord⟩ :: s.history) ∧
    (∃ t, exec (.rdSeq w) s = .next t ∧ SameBlock s t ∧
      t.history = .busRd (busBundle false 0x04#8 w) ⟨false, s.seq⟩ :: s.history) ∧
    (∃ t, exec (.rdCtrl w) s = .next t ∧ SameBlock s t ∧
      t.history = .busRd (busBundle false 0x08#8 w) ⟨false, 0#32⟩ :: s.history) ∧
    (∃ t, exec (.rdCfg w) s = .next t ∧ SameBlock s t ∧
      t.history = .busRd (busBundle false 0x0C#8 w) ⟨false, cfgWord s.cfg⟩ :: s.history)

/-- R186: writes to read-only registers answer `OKAY` with data 0 and change nothing. -/
def Obligations.WritesToReadOnlyRegistersAreIgnored : Prop :=
  ∀ (s : State) (w : Word), s.faults = [] →
    (∃ t, exec (.wrStatus w) s = .next t ∧ SameBlock s t ∧
      t.history = .busWr (busBundle true 0x00#8 w) ⟨false, 0#32⟩ :: s.history) ∧
    (∃ t, exec (.wrSeq w) s = .next t ∧ SameBlock s t ∧
      t.history = .busWr (busBundle true 0x04#8 w) ⟨false, 0#32⟩ :: s.history) ∧
    (∃ t, exec (.wrCfg w) s = .next t ∧ SameBlock s t ∧
      t.history = .busWr (busBundle true 0x0C#8 w) ⟨false, 0#32⟩ :: s.history)

/-- R185: a write to `CTRL` clears `OVR` where data bit 0 is 1 and `RANGE` where data bit 1 is 1, and nothing else. -/
def Obligations.CtrlWriteClearsTheChosenFlags : Prop :=
  ∀ (s : State) (w : Word), s.faults = [] →
    ∃ t, exec (.wrCtrl w) s = .next t ∧
      t.ovr = (if w.toNat % 2 = 1 then false else s.ovr) ∧ t.range = (if (w.toNat / 2) % 2 = 1 then false else s.range) ∧
      SameEngine s t ∧ SameSequencer s t ∧ SameStorage s t ∧ SameRest s t ∧ t.freeCtr = s.freeCtr ∧
      t.history = .busWr (busBundle true 0x08#8 w) ⟨false, 0#32⟩ :: s.history

/-- R187: every other key answers `ERR` with data 0, for a read and for a write, and changes nothing. -/
def Obligations.UnmappedAccessAnswersErr : Prop :=
  ∀ (s : State) (a : BitVec 8) (w : Word), s.faults = [] →
    (∃ t, exec (.busErr false a w) s = .next t ∧ SameBlock s t ∧
      t.history = .busRd (busBundle false a w) ⟨true, 0#32⟩ :: s.history) ∧
    (∃ t, exec (.busErr true a w) s = .next t ∧ SameBlock s t ∧
      t.history = .busWr (busBundle true a w) ⟨true, 0#32⟩ :: s.history)

/-- R188: whatever 41 bits the host puts on the bus, the step completes where `FAULTS` is empty and writes nothing of the
data path; only the sticky flags, the schedule and the history may differ. -/
def Obligations.TheBusCannotTouchTheDataPath : Prop :=
  ∀ (s : State) (b : BitVec 41) (rest : List Transaction), s.faults = [] → s.sched = .bus b :: rest →
    ∃ t, step s = .next t ∧ SameEngine s t ∧ SameSequencer s t ∧ SameStorage s t ∧
      t.cfg = s.cfg ∧ t.faults = [] ∧ t.refusals = s.refusals ∧ t.sched = rest ∧
      (t.ovr = true → s.ovr = true) ∧ (t.range = true → s.range = true)

/-! ### Faults and ownership -/

/-- R37: while `FAULTS` is not empty no step of any agent is enabled, `RESET` included. -/
def Obligations.AFaultedBlockTakesNoStep : Prop :=
  ∀ s : State, s.faults ≠ [] →
    step s = .fault .quiescent ∧
    ∀ i : Instr, (∀ c, i ≠ .scale c) → (∀ h v, i ≠ .fir h v) → exec i s = .fault .quiescent

/-- R37: neither record is cleared by any step, `RESET` included; and only `CAPTURE` and `COMPUTE` raise a fault. -/
def Obligations.FaultAndRefusalRecordsArePermanent : Prop :=
  ∀ (s t : State) (i : Instr), exec i s = .next t →
    (∀ f ∈ s.faults, f ∈ t.faults) ∧ (s.isRefused = true → t.isRefused = true) ∧
    (t.faults ≠ s.faults → i = .capture ∨ i = .compute)

/-- R6: no operation writes a parameter. -/
def Obligations.NoStepWritesAParameter : Prop :=
  (∀ (s t : State) (i : Instr), exec i s = .next t → t.cfg = s.cfg) ∧
  (∀ s t : State, step s = .next t → t.cfg = s.cfg)

/-- R26 and R242: only a fill and `RESET` write `SEQ` and `ACTIVE`, and the fill counts by one and swaps. -/
def Obligations.OnlyFillsCountAndSwap : Prop :=
  ∀ (s t : State) (i : Instr), exec i s = .next t → i ≠ .reset →
    (Fills s i → t.seq = s.seq + 1#32 ∧ t.active = s.active.other) ∧
    (¬ Fills s i → t.seq = s.seq ∧ t.active = s.active)

/-- R27 and R28: `OVR` is set only by a `WRITE` that meets the `corrupt` condition and `RANGE` only by `COMPUTE`; each is
cleared only by its bit of a `CTRL` write (and by `RESET`). -/
def Obligations.StickyFlagsHaveTheirSettersAndClearers : Prop :=
  ∀ (s t : State) (i : Instr), exec i s = .next t → i ≠ .reset →
    (s.ovr = false → t.ovr = true → (∃ c, i = .write c) ∧ Corrupts s) ∧
    (s.ovr = true → t.ovr = false → ∃ w : Word, i = .wrCtrl w ∧ w.getLsbD 0 = true) ∧
    (s.range = false → t.range = true → i = .compute) ∧
    (s.range = true → t.range = false → ∃ w : Word, i = .wrCtrl w ∧ w.getLsbD 1 = true)

/-! ### Headlines -/

/-- R39: every step keeps the invariant, from every state that meets it, whatever is scheduled. -/
def Obligations.EveryStepKeepsTheInvariant : Prop :=
  ∀ s t : State, s.Inv → step s = .next t → t.Inv

/-- R39 and R213: in a state of the invariant no step raises `UNWRITTEN_READ`. -/
def Obligations.UnwrittenReadIsUnreachable : Prop :=
  ∀ (s t : State) (x : Buf) (k : Nat), s.Inv → step s = .next t → FaultRecord.unwrittenRead x k ∉ t.faults

/-- R246 (a) and the first part of (b): in a run from any `RESET` that meets the deadline, no `WRITE` meets the `corrupt`
condition, `OVR` is never set, and at most one ready condition is pending. -/
def Obligations.TheDeadlineRulesOutOverrun : Prop :=
  ∀ (s t : State) (is : List Instr), FreshlyReset s → s.cfg.valid = true →
    RunsTo (fun u i => NotReset u i ∧ DeadlineMet u i) is s t →
    ¬ Corrupts t ∧ t.ovr = false ∧ ¬ (t.pendA = true ∧ t.pendB = true)

/-- R202 (ii) and R246 (c): where no `WRITE` meets the `corrupt` condition, the codes `COMPUTE` finds captured are exactly
those the buffer held when it was pending, in index order. The run goes from a state in which buffer `x` is pending, through
its acknowledge and its `CAPTURE` steps, to its `COMPUTE`. -/
def Obligations.WithoutOverrunTheFillIsCaptured : Prop :=
  ∀ (s t : State) (x : Buf) (is : List Instr), s.Inv → s.pend x = true →
    ¬ ((s.phase = .capture ∨ s.phase = .compute) ∧ s.cur = x) →
    RunsTo (fun u i => NotReset u i ∧ NoOverrun u i ∧ (u.pend x = true ∨ (u.phase = .capture ∧ u.cur = x))) is s t →
    t.phase = .compute → t.cur = x →
    ∀ k, k < s.cfg.bufLen → t.cap[k]? = some ((s.buf x).read k)

/-- R144, with the default numerics: in every run from any `RESET`, the delay line holds the last `T - 1` inputs of the processed
stream `u` (zeros before its start), and the filtered values of the block being emitted are the direct-form sums over `u`,
across every block boundary. -/
def Obligations.TheFilterSeesOneStream : Prop :=
  ∀ (s t : State) (is : List Instr), FreshlyReset s → s.cfg.valid = true → s.cfg.numerics = .exact →
    RunsTo NotReset is s t →
    let c := s.cfg
    let u := processedStream is s
    t.hist = (List.replicate (c.taps - 1) 0 ++ u).drop u.length ∧
    (t.phase = .emit → c.bufLen ≤ u.length ∧ ∀ i, i < c.bufLen →
      t.outU[i]? = some u[u.length - c.bufLen + i]? ∧
      t.outF[i]? = some (some (∑ k ∈ Finset.range c.taps,
        c.coeff.getD k 0 * streamAt u (u.length - c.bufLen + i) k)))

/-- R246 (b) and the end of R202, with the default numerics: in a run from any `RESET` that meets the deadline, the records
since it are the acquired codes in acquisition order, one each, scaled, and filtered as one stream; at a quiescent point every
filled buffer has been handed over (R251). -/
def Obligations.UnderTheDeadlineTheRecordsAreTheAcquiredStream : Prop :=
  ∀ (s t : State) (is : List Instr), FreshlyReset s → s.cfg.valid = true → s.cfg.numerics = .exact →
    RunsTo (fun u i => NotReset u i ∧ DeadlineMet u i) is s t →
    ∃ h, t.history = h ++ s.history ∧
    let c := s.cfg
    let u := (acquiredCodes h).map (scaleFn c)
    (recordsOf h).length ≤ u.length ∧
    (∀ n r, (recordsOf h)[n]? = some r →
      r = (u.getD n 0, ∑ k ∈ Finset.range c.taps, c.coeff.getD k 0 * streamAt u n k)) ∧
    (t.quiescentPoint → (recordsOf h).length = (readyEvents h).length * c.bufLen)

/-- R249 (the step structure of R120) and R83: in a state of the invariant that is idle with condition `x` alone pending, the
2L + 4 steps of a one-buffer invocation run to a quiescent point, and hand over the L records of buffer `x` in index order:
each code scaled, and the block filtered with the carried delay line. Buffer A is served before condition B is checked,
buffer B after condition A was. -/
def Obligations.AnInvocationServesItsBufferIn2LPlus4Steps : Prop :=
  ∀ (s : State) (x : Buf) (codes : List Code), s.Inv → s.faults = [] → s.phase = .idle →
    s.pend x = true → s.pend x.other = false →
    codes.length = s.cfg.bufLen → (∀ k, k < s.cfg.bufLen → (s.buf x).read k = codes[k]?) →
    (∀ c ∈ codes, c.toNat ≤ s.cfg.maxCode) →
    let process := List.replicate s.cfg.bufLen Instr.capture ++ [.compute] ++ List.replicate s.cfg.bufLen .emit
    let is := match x with
      | .A => [Instr.start, .checkA] ++ process ++ [.checkB]
      | .B => [Instr.start, .checkA, .checkB] ++ process
    let V := codes.map (scaleFn s.cfg)
    is.length = 2 * s.cfg.bufLen + 4 ∧
    ∃ t, RunsTo NotReset is s t ∧ t.quiescentPoint ∧ t.cur = x ∧
      recordsOf t.history = recordsOf s.history ++ V.zip (firBlock s.cfg s.hist V).1 ∧
      t.hist = (firBlock s.cfg s.hist V).2 ∧ SameSticky s t

/-- R127 and R83: an invocation that begins with both conditions pending serves A and then B, whichever filled first, and
hands over A's records before B's; the delay line is carried from A's block into B's. -/
def Obligations.AnInvocationServesABeforeB : Prop :=
  ∀ (s : State) (codesA codesB : List Code), s.Inv → s.faults = [] → s.phase = .idle → s.pendA = true → s.pendB = true →
    codesA.length = s.cfg.bufLen → (∀ k, k < s.cfg.bufLen → (s.bufA).read k = codesA[k]?) →
    codesB.length = s.cfg.bufLen → (∀ k, k < s.cfg.bufLen → (s.bufB).read k = codesB[k]?) →
    (∀ c ∈ codesA ++ codesB, c.toNat ≤ s.cfg.maxCode) →
    let process := List.replicate s.cfg.bufLen Instr.capture ++ [.compute] ++ List.replicate s.cfg.bufLen .emit
    let VA := codesA.map (scaleFn s.cfg)
    let VB := codesB.map (scaleFn s.cfg)
    let HA := (firBlock s.cfg s.hist VA).2
    ∃ t, RunsTo NotReset ([.start, .checkA] ++ process ++ [.checkB] ++ process) s t ∧ t.quiescentPoint ∧ t.cur = .B ∧
      recordsOf t.history = recordsOf s.history ++ VA.zip (firBlock s.cfg s.hist VA).1 ++
        VB.zip (firBlock s.cfg HA VB).1 ∧
      t.hist = (firBlock s.cfg HA VB).2

/-! ### Infinite executions -/

/-- R250 and R124: in an infinite execution from a state of the invariant, weakly fair and with a sink that keeps accepting,
every invocation ends: the sequencer is idle again and again, whatever the other agents do, `RESET` included. -/
def Obligations.EveryInvocationEnds : Prop :=
  ∀ (run : Nat → State) (steps : Nat → Instr), (run 0).Inv → InfiniteRun IsStep run steps → WeaklyFair run steps →
    SinkKeepsAccepting run steps → ∀ n, ∃ m, n ≤ m ∧ (run m).phase = .idle

/-- R126 (with the fairness of R250): in such an execution without `RESET`, a ready condition that is pending stays pending
until its own check acknowledges it, and that check comes. -/
def Obligations.EveryReadyConditionIsAcknowledged : Prop :=
  ∀ (run : Nat → State) (steps : Nat → Instr), (run 0).Inv →
    InfiniteRun (fun s i => IsStep s i ∧ NotReset s i) run steps → WeaklyFair run steps → SinkKeepsAccepting run steps →
    ∀ (n : Nat) (x : Buf), (run n).pend x = true →
      ∃ m, n ≤ m ∧ steps m = checkOf x ∧ (∀ k, n ≤ k → k ≤ m → (run k).pend x = true) ∧
        (run (m + 1)).pend x = false ∧ (run (m + 1)).phase = .capture ∧ (run (m + 1)).cur = x

/-! ### Numerics -/

/-- R148, in the model's notation for a configuration's own pair of functions (log 16): the two formulas of the default,
written out as the pair, give in every configuration the functions the default gives. -/
def Obligations.ExactFormulasGiveTheDefaultFunctions : Prop :=
  ∀ (c : Config) (code : Code) (H V : List Val),
    let formulas : Numerics := .given (.div (.mul .code .vref) .maxCode)
      (.foldTaps (.const 0) (.add .acc (.mul .tapCoeff .tapWindow)))
    scaleFn { c with numerics := formulas } code = scaleFn { c with numerics := .exact } code ∧
    firBlock { c with numerics := formulas } H V = firBlock { c with numerics := .exact } H V

/-! ### Outside the block -/

/-- R205: `m` is `|v| × 10^6` rounded to the nearest integer, with ties to even (the formatter's contract). -/
def Obligations.TextRoundsHalfToEven : Prop :=
  ∀ v : Val,
    |((microUnits v : Nat) : Val) - |v| * 1000000| ≤ 1 / 2 ∧
    (|((microUnits v : Nat) : Val) - |v| * 1000000| = 1 / 2 → microUnits v % 2 = 0)

/-- R51: byte lane `k` of a register word carries bits `[8k+7:8k]`, little-endian. -/
def Obligations.ByteLanesAreLittleEndian : Prop :=
  ∀ w : Word, w.toNat = (laneByte w 0).toNat + 2 ^ 8 * (laneByte w 1).toNat + 2 ^ 16 * (laneByte w 2).toNat +
    2 ^ 24 * (laneByte w 3).toNat
end

