-- ==== Sys2Proof/Laws/Config.lean ====
section
/-! SUPPORT. What a valid configuration is, as one proposition, and which conditions a refusal records. -/

namespace Sys2Proof

/-- R5 in words. -/
theorem Config.valid_iff (c : Config) :
    c.valid = true ↔ (1 ≤ c.bufLen ∧ c.bufLen ≤ 65535) ∧ (1 ≤ c.taps ∧ c.taps ≤ 4095) ∧ c.coeff.length = c.taps ∧
      (1 ≤ c.codeWidth ∧ c.codeWidth ≤ 16) ∧ (1 ≤ c.maxCode ∧ c.maxCode ≤ 2 ^ c.codeWidth - 1) ∧ 0 < c.vref := by
  simp [Config.valid, Config.conditions]

/-- A condition is recorded as failing exactly when it is listed as not holding. -/
theorem Config.mem_failing (c : Config) (k : ConfigCondition) : k ∈ c.failing ↔ (k, false) ∈ c.conditions := by
  simp [Config.failing]

/-- The reference instance is valid, whatever its open parameters. -/
theorem Config.valid_reference : Config.reference.valid = true := by
  rw [Config.valid_iff]
  refine ⟨by decide, by decide, by simp [Config.reference], by decide, by decide, ?_⟩
  exact Config.openPositive_pos _ _

end Sys2Proof
end

