-- ==== Sys2Proof/Laws/Memory.lean ====
section
/-! SUPPORT. The laws of sample-buffer storage: read after write, and that a write keeps the canonical form. -/

namespace Sys2Proof.Machine

namespace Memory

theorem read_write_same (m : Memory) (i : Nat) (c : Code) : (m.write i c).read i = some c := by
  induction m with
  | nil => simp [Memory.write, Memory.read]
  | cons p m ih =>
    obtain ⟨a, d⟩ := p
    simp only [Memory.write]
    split
    · simp [Memory.read]
    · split
      · simp [Memory.read]
      · rename_i h
        simp [Memory.read, Ne.symm h, ih]

theorem read_write_other (m : Memory) (i k : Nat) (c : Code) (h : k ≠ i) : (m.write i c).read k = m.read k := by
  induction m with
  | nil => simp [Memory.write, Memory.read, Ne.symm h]
  | cons p m ih =>
    obtain ⟨a, d⟩ := p
    simp only [Memory.write]
    split
    · simp [Memory.read, Ne.symm h]
    · split
      · rename_i h2; subst h2; simp [Memory.read, Ne.symm h]
      · simp [Memory.read, ih]

/-- One spelling for a read after a write. -/
theorem read_write (m : Memory) (i k : Nat) (c : Code) :
    (m.write i c).read k = if k = i then some c else m.read k := by
  split
  · rename_i h; subst h; exact read_write_same m k c
  · rename_i h; exact read_write_other m i k c h

theorem wf_cons_tail {p : Nat × Code} {m : Memory} (h : Memory.wf (p :: m) = true) : Memory.wf m = true := by
  cases m with
  | nil => rfl
  | cons q m => simp only [Memory.wf, Bool.and_eq_true] at h; exact h.2

/-- Prefixing an entry keeps the form when its index is below the first one there. -/
theorem wf_cons {a : Nat} {d : Code} {m : Memory} (hm : m.wf = true) (h : ∀ b e, m.head? = some (b, e) → a < b) :
    Memory.wf ((a, d) :: m) = true := by
  cases m with
  | nil => rfl
  | cons q m => simp only [Memory.wf, Bool.and_eq_true, decide_eq_true_eq]; exact ⟨h q.1 q.2 rfl, hm⟩

theorem head_write (m : Memory) (i : Nat) (c : Code) (a : Nat) (ha : ∀ b e, m.head? = some (b, e) → a < b) (hi : a < i) :
    ∀ b e, (m.write i c).head? = some (b, e) → a < b := by
  intro b e h
  cases m with
  | nil => simp only [Memory.write, List.head?_cons, Option.some.injEq, Prod.mk.injEq] at h; omega
  | cons q m =>
    obtain ⟨x, y⟩ := q
    have := ha x y rfl
    simp only [Memory.write] at h
    split at h
    · simp only [List.head?_cons, Option.some.injEq, Prod.mk.injEq] at h; omega
    · split at h <;> simp only [List.head?_cons, Option.some.injEq, Prod.mk.injEq] at h <;> omega

/-- The only operation that changes a memory keeps its canonical form. -/
theorem write_wf (m : Memory) (i : Nat) (c : Code) (h : m.wf = true) : (m.write i c).wf = true := by
  induction m with
  | nil => rfl
  | cons p m ih =>
    obtain ⟨a, d⟩ := p
    have hhead : ∀ b e, m.head? = some (b, e) → a < b := by
      intro b e hb
      cases m with
      | nil => simp at hb
      | cons q m =>
        simp only [List.head?_cons, Option.some.injEq] at hb
        subst hb
        simp only [Memory.wf, Bool.and_eq_true, decide_eq_true_eq] at h
        exact h.1
    simp only [Memory.write]
    split
    · rename_i hlt
      refine wf_cons h ?_
      intro b e hb
      simp only [List.head?_cons, Option.some.injEq, Prod.mk.injEq] at hb
      omega
    · split
      · rename_i heq; subst heq; exact wf_cons (wf_cons_tail h) hhead
      · exact wf_cons (ih (wf_cons_tail h)) (head_write m i c a hhead (by omega))

/-- What a read finds is an entry. -/
theorem mem_of_read {m : Memory} {i : Nat} {c : Code} (h : m.read i = some c) : (i, c) ∈ m := by
  induction m with
  | nil => simp [Memory.read] at h
  | cons p m ih =>
    simp only [Memory.read] at h
    split at h
    · rename_i ha; cases h; subst ha; exact List.mem_cons_self ..
    · exact List.mem_cons_of_mem _ (ih h)

/-- The reset contents have the form, and every element of them is ⊥. -/
@[simp] theorem wf_nil : Memory.wf [] = true := rfl

@[simp] theorem read_nil (i : Nat) : Memory.read [] i = none := rfl

end Memory

end Sys2Proof.Machine
end

