-- ==== Sys2Proof/Laws/State.lean ====
section
/-! SUPPORT. One lemma per field per named state update, so that no later proof unfolds a record update. -/

namespace Sys2Proof.Machine

variable (s : State)

/-! ### `record` -/

@[simp] theorem State.record_bufA (ev : Event) : (s.record ev).bufA = s.bufA := rfl

@[simp] theorem State.record_bufB (ev : Event) : (s.record ev).bufB = s.bufB := rfl

@[simp] theorem State.record_active (ev : Event) : (s.record ev).active = s.active := rfl

@[simp] theorem State.record_fill (ev : Event) : (s.record ev).fill = s.fill := rfl

@[simp] theorem State.record_pendA (ev : Event) : (s.record ev).pendA = s.pendA := rfl

@[simp] theorem State.record_pendB (ev : Event) : (s.record ev).pendB = s.pendB := rfl

@[simp] theorem State.record_seq (ev : Event) : (s.record ev).seq = s.seq := rfl

@[simp] theorem State.record_ovr (ev : Event) : (s.record ev).ovr = s.ovr := rfl

@[simp] theorem State.record_range (ev : Event) : (s.record ev).range = s.range := rfl

@[simp] theorem State.record_hist (ev : Event) : (s.record ev).hist = s.hist := rfl

@[simp] theorem State.record_phase (ev : Event) : (s.record ev).phase = s.phase := rfl

@[simp] theorem State.record_cur (ev : Event) : (s.record ev).cur = s.cur := rfl

@[simp] theorem State.record_j (ev : Event) : (s.record ev).j = s.j := rfl

@[simp] theorem State.record_cap (ev : Event) : (s.record ev).cap = s.cap := rfl

@[simp] theorem State.record_outU (ev : Event) : (s.record ev).outU = s.outU := rfl

@[simp] theorem State.record_outF (ev : Event) : (s.record ev).outF = s.outF := rfl

@[simp] theorem State.record_e (ev : Event) : (s.record ev).e = s.e := rfl

@[simp] theorem State.record_faults (ev : Event) : (s.record ev).faults = s.faults := rfl

@[simp] theorem State.record_refusals (ev : Event) : (s.record ev).refusals = s.refusals := rfl

@[simp] theorem State.record_cfg (ev : Event) : (s.record ev).cfg = s.cfg := rfl

@[simp] theorem State.record_history (ev : Event) : (s.record ev).history = ev :: s.history := rfl

@[simp] theorem State.record_sched (ev : Event) : (s.record ev).sched = s.sched := rfl

@[simp] theorem State.record_fnResult (ev : Event) : (s.record ev).fnResult = s.fnResult := rfl

@[simp] theorem State.record_freeCtr (ev : Event) : (s.record ev).freeCtr = s.freeCtr := rfl
/-! ### `raise` -/

@[simp] theorem State.raise_bufA (f : FaultRecord) : (s.raise f).bufA = s.bufA := rfl

@[simp] theorem State.raise_bufB (f : FaultRecord) : (s.raise f).bufB = s.bufB := rfl

@[simp] theorem State.raise_active (f : FaultRecord) : (s.raise f).active = s.active := rfl

@[simp] theorem State.raise_fill (f : FaultRecord) : (s.raise f).fill = s.fill := rfl

@[simp] theorem State.raise_pendA (f : FaultRecord) : (s.raise f).pendA = s.pendA := rfl

@[simp] theorem State.raise_pendB (f : FaultRecord) : (s.raise f).pendB = s.pendB := rfl

@[simp] theorem State.raise_seq (f : FaultRecord) : (s.raise f).seq = s.seq := rfl

@[simp] theorem State.raise_ovr (f : FaultRecord) : (s.raise f).ovr = s.ovr := rfl

@[simp] theorem State.raise_range (f : FaultRecord) : (s.raise f).range = s.range := rfl

@[simp] theorem State.raise_hist (f : FaultRecord) : (s.raise f).hist = s.hist := rfl

@[simp] theorem State.raise_phase (f : FaultRecord) : (s.raise f).phase = s.phase := rfl

@[simp] theorem State.raise_cur (f : FaultRecord) : (s.raise f).cur = s.cur := rfl

@[simp] theorem State.raise_j (f : FaultRecord) : (s.raise f).j = s.j := rfl

@[simp] theorem State.raise_cap (f : FaultRecord) : (s.raise f).cap = s.cap := rfl

@[simp] theorem State.raise_outU (f : FaultRecord) : (s.raise f).outU = s.outU := rfl

@[simp] theorem State.raise_outF (f : FaultRecord) : (s.raise f).outF = s.outF := rfl

@[simp] theorem State.raise_e (f : FaultRecord) : (s.raise f).e = s.e := rfl

@[simp] theorem State.raise_faults (f : FaultRecord) : (s.raise f).faults = s.faults.insert f := rfl

@[simp] theorem State.raise_refusals (f : FaultRecord) : (s.raise f).refusals = s.refusals := rfl

@[simp] theorem State.raise_cfg (f : FaultRecord) : (s.raise f).cfg = s.cfg := rfl

@[simp] theorem State.raise_history (f : FaultRecord) : (s.raise f).history = s.history := rfl

@[simp] theorem State.raise_sched (f : FaultRecord) : (s.raise f).sched = s.sched := rfl

@[simp] theorem State.raise_fnResult (f : FaultRecord) : (s.raise f).fnResult = s.fnResult := rfl

@[simp] theorem State.raise_freeCtr (f : FaultRecord) : (s.raise f).freeCtr = s.freeCtr := rfl
/-! ### `refuse` -/

@[simp] theorem State.refuse_bufA (r : RefusalRecord) : (s.refuse r).bufA = s.bufA := rfl

@[simp] theorem State.refuse_bufB (r : RefusalRecord) : (s.refuse r).bufB = s.bufB := rfl

@[simp] theorem State.refuse_active (r : RefusalRecord) : (s.refuse r).active = s.active := rfl

@[simp] theorem State.refuse_fill (r : RefusalRecord) : (s.refuse r).fill = s.fill := rfl

@[simp] theorem State.refuse_pendA (r : RefusalRecord) : (s.refuse r).pendA = s.pendA := rfl

@[simp] theorem State.refuse_pendB (r : RefusalRecord) : (s.refuse r).pendB = s.pendB := rfl

@[simp] theorem State.refuse_seq (r : RefusalRecord) : (s.refuse r).seq = s.seq := rfl

@[simp] theorem State.refuse_ovr (r : RefusalRecord) : (s.refuse r).ovr = s.ovr := rfl

@[simp] theorem State.refuse_range (r : RefusalRecord) : (s.refuse r).range = s.range := rfl

@[simp] theorem State.refuse_hist (r : RefusalRecord) : (s.refuse r).hist = s.hist := rfl

@[simp] theorem State.refuse_phase (r : RefusalRecord) : (s.refuse r).phase = s.phase := rfl

@[simp] theorem State.refuse_cur (r : RefusalRecord) : (s.refuse r).cur = s.cur := rfl

@[simp] theorem State.refuse_j (r : RefusalRecord) : (s.refuse r).j = s.j := rfl

@[simp] theorem State.refuse_cap (r : RefusalRecord) : (s.refuse r).cap = s.cap := rfl

@[simp] theorem State.refuse_outU (r : RefusalRecord) : (s.refuse r).outU = s.outU := rfl

@[simp] theorem State.refuse_outF (r : RefusalRecord) : (s.refuse r).outF = s.outF := rfl

@[simp] theorem State.refuse_e (r : RefusalRecord) : (s.refuse r).e = s.e := rfl

@[simp] theorem State.refuse_faults (r : RefusalRecord) : (s.refuse r).faults = s.faults := rfl

@[simp] theorem State.refuse_refusals (r : RefusalRecord) : (s.refuse r).refusals = s.refusals ++ [r] := rfl

@[simp] theorem State.refuse_cfg (r : RefusalRecord) : (s.refuse r).cfg = s.cfg := rfl

@[simp] theorem State.refuse_history (r : RefusalRecord) : (s.refuse r).history = s.history := rfl

@[simp] theorem State.refuse_sched (r : RefusalRecord) : (s.refuse r).sched = s.sched := rfl

@[simp] theorem State.refuse_fnResult (r : RefusalRecord) : (s.refuse r).fnResult = s.fnResult := rfl

@[simp] theorem State.refuse_freeCtr (r : RefusalRecord) : (s.refuse r).freeCtr = s.freeCtr := rfl
/-! ### `answer` -/

@[simp] theorem State.answer_bufA (r : FnResult) : (s.answer r).bufA = s.bufA := rfl

@[simp] theorem State.answer_bufB (r : FnResult) : (s.answer r).bufB = s.bufB := rfl

@[simp] theorem State.answer_active (r : FnResult) : (s.answer r).active = s.active := rfl

@[simp] theorem State.answer_fill (r : FnResult) : (s.answer r).fill = s.fill := rfl

@[simp] theorem State.answer_pendA (r : FnResult) : (s.answer r).pendA = s.pendA := rfl

@[simp] theorem State.answer_pendB (r : FnResult) : (s.answer r).pendB = s.pendB := rfl

@[simp] theorem State.answer_seq (r : FnResult) : (s.answer r).seq = s.seq := rfl

@[simp] theorem State.answer_ovr (r : FnResult) : (s.answer r).ovr = s.ovr := rfl

@[simp] theorem State.answer_range (r : FnResult) : (s.answer r).range = s.range := rfl

@[simp] theorem State.answer_hist (r : FnResult) : (s.answer r).hist = s.hist := rfl

@[simp] theorem State.answer_phase (r : FnResult) : (s.answer r).phase = s.phase := rfl

@[simp] theorem State.answer_cur (r : FnResult) : (s.answer r).cur = s.cur := rfl

@[simp] theorem State.answer_j (r : FnResult) : (s.answer r).j = s.j := rfl

@[simp] theorem State.answer_cap (r : FnResult) : (s.answer r).cap = s.cap := rfl

@[simp] theorem State.answer_outU (r : FnResult) : (s.answer r).outU = s.outU := rfl

@[simp] theorem State.answer_outF (r : FnResult) : (s.answer r).outF = s.outF := rfl

@[simp] theorem State.answer_e (r : FnResult) : (s.answer r).e = s.e := rfl

@[simp] theorem State.answer_faults (r : FnResult) : (s.answer r).faults = s.faults := rfl

@[simp] theorem State.answer_refusals (r : FnResult) : (s.answer r).refusals = s.refusals := rfl

@[simp] theorem State.answer_cfg (r : FnResult) : (s.answer r).cfg = s.cfg := rfl

@[simp] theorem State.answer_history (r : FnResult) : (s.answer r).history = s.history := rfl

@[simp] theorem State.answer_sched (r : FnResult) : (s.answer r).sched = s.sched := rfl

@[simp] theorem State.answer_fnResult (r : FnResult) : (s.answer r).fnResult = r := rfl

@[simp] theorem State.answer_freeCtr (r : FnResult) : (s.answer r).freeCtr = s.freeCtr := rfl
/-! ### `popSched` -/

@[simp] theorem State.popSched_bufA : (s.popSched).bufA = s.bufA := rfl

@[simp] theorem State.popSched_bufB : (s.popSched).bufB = s.bufB := rfl

@[simp] theorem State.popSched_active : (s.popSched).active = s.active := rfl

@[simp] theorem State.popSched_fill : (s.popSched).fill = s.fill := rfl

@[simp] theorem State.popSched_pendA : (s.popSched).pendA = s.pendA := rfl

@[simp] theorem State.popSched_pendB : (s.popSched).pendB = s.pendB := rfl

@[simp] theorem State.popSched_seq : (s.popSched).seq = s.seq := rfl

@[simp] theorem State.popSched_ovr : (s.popSched).ovr = s.ovr := rfl

@[simp] theorem State.popSched_range : (s.popSched).range = s.range := rfl

@[simp] theorem State.popSched_hist : (s.popSched).hist = s.hist := rfl

@[simp] theorem State.popSched_phase : (s.popSched).phase = s.phase := rfl

@[simp] theorem State.popSched_cur : (s.popSched).cur = s.cur := rfl

@[simp] theorem State.popSched_j : (s.popSched).j = s.j := rfl

@[simp] theorem State.popSched_cap : (s.popSched).cap = s.cap := rfl

@[simp] theorem State.popSched_outU : (s.popSched).outU = s.outU := rfl

@[simp] theorem State.popSched_outF : (s.popSched).outF = s.outF := rfl

@[simp] theorem State.popSched_e : (s.popSched).e = s.e := rfl

@[simp] theorem State.popSched_faults : (s.popSched).faults = s.faults := rfl

@[simp] theorem State.popSched_refusals : (s.popSched).refusals = s.refusals := rfl

@[simp] theorem State.popSched_cfg : (s.popSched).cfg = s.cfg := rfl

@[simp] theorem State.popSched_history : (s.popSched).history = s.history := rfl

@[simp] theorem State.popSched_sched : (s.popSched).sched = s.sched.tail := rfl

@[simp] theorem State.popSched_fnResult : (s.popSched).fnResult = s.fnResult := rfl

@[simp] theorem State.popSched_freeCtr : (s.popSched).freeCtr = s.freeCtr := rfl
/-! ### `setBuf` -/

@[simp] theorem State.setBuf_active (x : Buf) (m : Memory) : (s.setBuf x m).active = s.active := by cases x <;> rfl

@[simp] theorem State.setBuf_fill (x : Buf) (m : Memory) : (s.setBuf x m).fill = s.fill := by cases x <;> rfl

@[simp] theorem State.setBuf_pendA (x : Buf) (m : Memory) : (s.setBuf x m).pendA = s.pendA := by cases x <;> rfl

@[simp] theorem State.setBuf_pendB (x : Buf) (m : Memory) : (s.setBuf x m).pendB = s.pendB := by cases x <;> rfl

@[simp] theorem State.setBuf_seq (x : Buf) (m : Memory) : (s.setBuf x m).seq = s.seq := by cases x <;> rfl

@[simp] theorem State.setBuf_ovr (x : Buf) (m : Memory) : (s.setBuf x m).ovr = s.ovr := by cases x <;> rfl

@[simp] theorem State.setBuf_range (x : Buf) (m : Memory) : (s.setBuf x m).range = s.range := by cases x <;> rfl

@[simp] theorem State.setBuf_hist (x : Buf) (m : Memory) : (s.setBuf x m).hist = s.hist := by cases x <;> rfl

@[simp] theorem State.setBuf_phase (x : Buf) (m : Memory) : (s.setBuf x m).phase = s.phase := by cases x <;> rfl

@[simp] theorem State.setBuf_cur (x : Buf) (m : Memory) : (s.setBuf x m).cur = s.cur := by cases x <;> rfl

@[simp] theorem State.setBuf_j (x : Buf) (m : Memory) : (s.setBuf x m).j = s.j := by cases x <;> rfl

@[simp] theorem State.setBuf_cap (x : Buf) (m : Memory) : (s.setBuf x m).cap = s.cap := by cases x <;> rfl

@[simp] theorem State.setBuf_outU (x : Buf) (m : Memory) : (s.setBuf x m).outU = s.outU := by cases x <;> rfl

@[simp] theorem State.setBuf_outF (x : Buf) (m : Memory) : (s.setBuf x m).outF = s.outF := by cases x <;> rfl

@[simp] theorem State.setBuf_e (x : Buf) (m : Memory) : (s.setBuf x m).e = s.e := by cases x <;> rfl

@[simp] theorem State.setBuf_faults (x : Buf) (m : Memory) : (s.setBuf x m).faults = s.faults := by cases x <;> rfl

@[simp] theorem State.setBuf_refusals (x : Buf) (m : Memory) : (s.setBuf x m).refusals = s.refusals := by cases x <;> rfl

@[simp] theorem State.setBuf_cfg (x : Buf) (m : Memory) : (s.setBuf x m).cfg = s.cfg := by cases x <;> rfl

@[simp] theorem State.setBuf_history (x : Buf) (m : Memory) : (s.setBuf x m).history = s.history := by cases x <;> rfl

@[simp] theorem State.setBuf_sched (x : Buf) (m : Memory) : (s.setBuf x m).sched = s.sched := by cases x <;> rfl

@[simp] theorem State.setBuf_fnResult (x : Buf) (m : Memory) : (s.setBuf x m).fnResult = s.fnResult := by cases x <;> rfl

@[simp] theorem State.setBuf_freeCtr (x : Buf) (m : Memory) : (s.setBuf x m).freeCtr = s.freeCtr := by cases x <;> rfl
/-! ### `setPend` -/

@[simp] theorem State.setPend_bufA (x : Buf) (v : Bool) : (s.setPend x v).bufA = s.bufA := by cases x <;> rfl

@[simp] theorem State.setPend_bufB (x : Buf) (v : Bool) : (s.setPend x v).bufB = s.bufB := by cases x <;> rfl

@[simp] theorem State.setPend_active (x : Buf) (v : Bool) : (s.setPend x v).active = s.active := by cases x <;> rfl

@[simp] theorem State.setPend_fill (x : Buf) (v : Bool) : (s.setPend x v).fill = s.fill := by cases x <;> rfl

@[simp] theorem State.setPend_seq (x : Buf) (v : Bool) : (s.setPend x v).seq = s.seq := by cases x <;> rfl

@[simp] theorem State.setPend_ovr (x : Buf) (v : Bool) : (s.setPend x v).ovr = s.ovr := by cases x <;> rfl

@[simp] theorem State.setPend_range (x : Buf) (v : Bool) : (s.setPend x v).range = s.range := by cases x <;> rfl

@[simp] theorem State.setPend_hist (x : Buf) (v : Bool) : (s.setPend x v).hist = s.hist := by cases x <;> rfl

@[simp] theorem State.setPend_phase (x : Buf) (v : Bool) : (s.setPend x v).phase = s.phase := by cases x <;> rfl

@[simp] theorem State.setPend_cur (x : Buf) (v : Bool) : (s.setPend x v).cur = s.cur := by cases x <;> rfl

@[simp] theorem State.setPend_j (x : Buf) (v : Bool) : (s.setPend x v).j = s.j := by cases x <;> rfl

@[simp] theorem State.setPend_cap (x : Buf) (v : Bool) : (s.setPend x v).cap = s.cap := by cases x <;> rfl

@[simp] theorem State.setPend_outU (x : Buf) (v : Bool) : (s.setPend x v).outU = s.outU := by cases x <;> rfl

@[simp] theorem State.setPend_outF (x : Buf) (v : Bool) : (s.setPend x v).outF = s.outF := by cases x <;> rfl

@[simp] theorem State.setPend_e (x : Buf) (v : Bool) : (s.setPend x v).e = s.e := by cases x <;> rfl

@[simp] theorem State.setPend_faults (x : Buf) (v : Bool) : (s.setPend x v).faults = s.faults := by cases x <;> rfl

@[simp] theorem State.setPend_refusals (x : Buf) (v : Bool) : (s.setPend x v).refusals = s.refusals := by cases x <;> rfl

@[simp] theorem State.setPend_cfg (x : Buf) (v : Bool) : (s.setPend x v).cfg = s.cfg := by cases x <;> rfl

@[simp] theorem State.setPend_history (x : Buf) (v : Bool) : (s.setPend x v).history = s.history := by cases x <;> rfl

@[simp] theorem State.setPend_sched (x : Buf) (v : Bool) : (s.setPend x v).sched = s.sched := by cases x <;> rfl

@[simp] theorem State.setPend_fnResult (x : Buf) (v : Bool) : (s.setPend x v).fnResult = s.fnResult := by cases x <;> rfl

@[simp] theorem State.setPend_freeCtr (x : Buf) (v : Bool) : (s.setPend x v).freeCtr = s.freeCtr := by cases x <;> rfl
/-! ### `storeSample` -/

@[simp] theorem State.storeSample_active (c : Code) : (s.storeSample c).active = s.active := by
  simp [State.storeSample]

@[simp] theorem State.storeSample_fill (c : Code) : (s.storeSample c).fill = s.fill := by
  simp [State.storeSample]

@[simp] theorem State.storeSample_pendA (c : Code) : (s.storeSample c).pendA = s.pendA := by
  simp [State.storeSample]

@[simp] theorem State.storeSample_pendB (c : Code) : (s.storeSample c).pendB = s.pendB := by
  simp [State.storeSample]

@[simp] theorem State.storeSample_seq (c : Code) : (s.storeSample c).seq = s.seq := by
  simp [State.storeSample]

@[simp] theorem State.storeSample_ovr (c : Code) : (s.storeSample c).ovr = (s.ovr || s.corrupt) := by
  simp [State.storeSample]

@[simp] theorem State.storeSample_range (c : Code) : (s.storeSample c).range = s.range := by
  simp [State.storeSample]

@[simp] theorem State.storeSample_hist (c : Code) : (s.storeSample c).hist = s.hist := by
  simp [State.storeSample]

@[simp] theorem State.storeSample_phase (c : Code) : (s.storeSample c).phase = s.phase := by
  simp [State.storeSample]

@[simp] theorem State.storeSample_cur (c : Code) : (s.storeSample c).cur = s.cur := by
  simp [State.storeSample]

@[simp] theorem State.storeSample_j (c : Code) : (s.storeSample c).j = s.j := by
  simp [State.storeSample]

@[simp] theorem State.storeSample_cap (c : Code) : (s.storeSample c).cap = s.cap := by
  simp [State.storeSample]

@[simp] theorem State.storeSample_outU (c : Code) : (s.storeSample c).outU = s.outU := by
  simp [State.storeSample]

@[simp] theorem State.storeSample_outF (c : Code) : (s.storeSample c).outF = s.outF := by
  simp [State.storeSample]

@[simp] theorem State.storeSample_e (c : Code) : (s.storeSample c).e = s.e := by
  simp [State.storeSample]

@[simp] theorem State.storeSample_faults (c : Code) : (s.storeSample c).faults = s.faults := by
  simp [State.storeSample]

@[simp] theorem State.storeSample_refusals (c : Code) : (s.storeSample c).refusals = s.refusals := by
  simp [State.storeSample]

@[simp] theorem State.storeSample_cfg (c : Code) : (s.storeSample c).cfg = s.cfg := by
  simp [State.storeSample]

@[simp] theorem State.storeSample_history (c : Code) : (s.storeSample c).history = s.history := by
  simp [State.storeSample]

@[simp] theorem State.storeSample_sched (c : Code) : (s.storeSample c).sched = s.sched := by
  simp [State.storeSample]

@[simp] theorem State.storeSample_fnResult (c : Code) : (s.storeSample c).fnResult = s.fnResult := by
  simp [State.storeSample]

@[simp] theorem State.storeSample_freeCtr (c : Code) : (s.storeSample c).freeCtr = s.freeCtr := by
  simp [State.storeSample]

/-! ### `swapBuffers` -/

@[simp] theorem State.swapBuffers_bufA : (s.swapBuffers).bufA = s.bufA := by
  simp [State.swapBuffers]

@[simp] theorem State.swapBuffers_bufB : (s.swapBuffers).bufB = s.bufB := by
  simp [State.swapBuffers]

@[simp] theorem State.swapBuffers_active : (s.swapBuffers).active = s.active.other := by
  simp [State.swapBuffers]

@[simp] theorem State.swapBuffers_fill : (s.swapBuffers).fill = 0 := by
  simp [State.swapBuffers]

@[simp] theorem State.swapBuffers_seq : (s.swapBuffers).seq = s.seq + 1#32 := by
  simp [State.swapBuffers]

@[simp] theorem State.swapBuffers_ovr : (s.swapBuffers).ovr = s.ovr := by
  simp [State.swapBuffers]

@[simp] theorem State.swapBuffers_range : (s.swapBuffers).range = s.range := by
  simp [State.swapBuffers]

@[simp] theorem State.swapBuffers_hist : (s.swapBuffers).hist = s.hist := by
  simp [State.swapBuffers]

@[simp] theorem State.swapBuffers_phase : (s.swapBuffers).phase = s.phase := by
  simp [State.swapBuffers]

@[simp] theorem State.swapBuffers_cur : (s.swapBuffers).cur = s.cur := by
  simp [State.swapBuffers]

@[simp] theorem State.swapBuffers_j : (s.swapBuffers).j = s.j := by
  simp [State.swapBuffers]

@[simp] theorem State.swapBuffers_cap : (s.swapBuffers).cap = s.cap := by
  simp [State.swapBuffers]

@[simp] theorem State.swapBuffers_outU : (s.swapBuffers).outU = s.outU := by
  simp [State.swapBuffers]

@[simp] theorem State.swapBuffers_outF : (s.swapBuffers).outF = s.outF := by
  simp [State.swapBuffers]

@[simp] theorem State.swapBuffers_e : (s.swapBuffers).e = s.e := by
  simp [State.swapBuffers]

@[simp] theorem State.swapBuffers_faults : (s.swapBuffers).faults = s.faults := by
  simp [State.swapBuffers]

@[simp] theorem State.swapBuffers_refusals : (s.swapBuffers).refusals = s.refusals := by
  simp [State.swapBuffers]

@[simp] theorem State.swapBuffers_cfg : (s.swapBuffers).cfg = s.cfg := by
  simp [State.swapBuffers]

@[simp] theorem State.swapBuffers_history : (s.swapBuffers).history = s.history := by
  simp [State.swapBuffers]

@[simp] theorem State.swapBuffers_sched : (s.swapBuffers).sched = s.sched := by
  simp [State.swapBuffers]

@[simp] theorem State.swapBuffers_fnResult : (s.swapBuffers).fnResult = s.fnResult := by
  simp [State.swapBuffers]

@[simp] theorem State.swapBuffers_freeCtr : (s.swapBuffers).freeCtr = s.freeCtr := by
  simp [State.swapBuffers]

/-! ### `acknowledge` -/

@[simp] theorem State.acknowledge_bufA (x : Buf) : (s.acknowledge x).bufA = s.bufA := by
  simp [State.acknowledge]

@[simp] theorem State.acknowledge_bufB (x : Buf) : (s.acknowledge x).bufB = s.bufB := by
  simp [State.acknowledge]

@[simp] theorem State.acknowledge_active (x : Buf) : (s.acknowledge x).active = s.active := by
  simp [State.acknowledge]

@[simp] theorem State.acknowledge_fill (x : Buf) : (s.acknowledge x).fill = s.fill := by
  simp [State.acknowledge]

@[simp] theorem State.acknowledge_seq (x : Buf) : (s.acknowledge x).seq = s.seq := by
  simp [State.acknowledge]

@[simp] theorem State.acknowledge_ovr (x : Buf) : (s.acknowledge x).ovr = s.ovr := by
  simp [State.acknowledge]

@[simp] theorem State.acknowledge_range (x : Buf) : (s.acknowledge x).range = s.range := by
  simp [State.acknowledge]

@[simp] theorem State.acknowledge_hist (x : Buf) : (s.acknowledge x).hist = s.hist := by
  simp [State.acknowledge]

@[simp] theorem State.acknowledge_phase (x : Buf) : (s.acknowledge x).phase = .capture := by
  simp [State.acknowledge]

@[simp] theorem State.acknowledge_cur (x : Buf) : (s.acknowledge x).cur = x := by
  simp [State.acknowledge]

@[simp] theorem State.acknowledge_j (x : Buf) : (s.acknowledge x).j = 0 := by
  simp [State.acknowledge]

@[simp] theorem State.acknowledge_cap (x : Buf) : (s.acknowledge x).cap = s.cap := by
  simp [State.acknowledge]

@[simp] theorem State.acknowledge_outU (x : Buf) : (s.acknowledge x).outU = s.outU := by
  simp [State.acknowledge]

@[simp] theorem State.acknowledge_outF (x : Buf) : (s.acknowledge x).outF = s.outF := by
  simp [State.acknowledge]

@[simp] theorem State.acknowledge_e (x : Buf) : (s.acknowledge x).e = s.e := by
  simp [State.acknowledge]

@[simp] theorem State.acknowledge_faults (x : Buf) : (s.acknowledge x).faults = s.faults := by
  simp [State.acknowledge]

@[simp] theorem State.acknowledge_refusals (x : Buf) : (s.acknowledge x).refusals = s.refusals := by
  simp [State.acknowledge]

@[simp] theorem State.acknowledge_cfg (x : Buf) : (s.acknowledge x).cfg = s.cfg := by
  simp [State.acknowledge]

@[simp] theorem State.acknowledge_history (x : Buf) : (s.acknowledge x).history = s.history := by
  simp [State.acknowledge]

@[simp] theorem State.acknowledge_sched (x : Buf) : (s.acknowledge x).sched = s.sched := by
  simp [State.acknowledge]

@[simp] theorem State.acknowledge_fnResult (x : Buf) : (s.acknowledge x).fnResult = s.fnResult := by
  simp [State.acknowledge]

@[simp] theorem State.acknowledge_freeCtr (x : Buf) : (s.acknowledge x).freeCtr = s.freeCtr := by
  simp [State.acknowledge]

/-! ### `goTo` -/

@[simp] theorem State.goTo_bufA (p : Phase) : (s.goTo p).bufA = s.bufA := rfl

@[simp] theorem State.goTo_bufB (p : Phase) : (s.goTo p).bufB = s.bufB := rfl

@[simp] theorem State.goTo_active (p : Phase) : (s.goTo p).active = s.active := rfl

@[simp] theorem State.goTo_fill (p : Phase) : (s.goTo p).fill = s.fill := rfl

@[simp] theorem State.goTo_pendA (p : Phase) : (s.goTo p).pendA = s.pendA := rfl

@[simp] theorem State.goTo_pendB (p : Phase) : (s.goTo p).pendB = s.pendB := rfl

@[simp] theorem State.goTo_seq (p : Phase) : (s.goTo p).seq = s.seq := rfl

@[simp] theorem State.goTo_ovr (p : Phase) : (s.goTo p).ovr = s.ovr := rfl

@[simp] theorem State.goTo_range (p : Phase) : (s.goTo p).range = s.range := rfl

@[simp] theorem State.goTo_hist (p : Phase) : (s.goTo p).hist = s.hist := rfl

@[simp] theorem State.goTo_phase (p : Phase) : (s.goTo p).phase = p := rfl

@[simp] theorem State.goTo_cur (p : Phase) : (s.goTo p).cur = s.cur := rfl

@[simp] theorem State.goTo_j (p : Phase) : (s.goTo p).j = s.j := rfl

@[simp] theorem State.goTo_cap (p : Phase) : (s.goTo p).cap = s.cap := rfl

@[simp] theorem State.goTo_outU (p : Phase) : (s.goTo p).outU = s.outU := rfl

@[simp] theorem State.goTo_outF (p : Phase) : (s.goTo p).outF = s.outF := rfl

@[simp] theorem State.goTo_e (p : Phase) : (s.goTo p).e = s.e := rfl

@[simp] theorem State.goTo_faults (p : Phase) : (s.goTo p).faults = s.faults := rfl

@[simp] theorem State.goTo_refusals (p : Phase) : (s.goTo p).refusals = s.refusals := rfl

@[simp] theorem State.goTo_cfg (p : Phase) : (s.goTo p).cfg = s.cfg := rfl

@[simp] theorem State.goTo_history (p : Phase) : (s.goTo p).history = s.history := rfl

@[simp] theorem State.goTo_sched (p : Phase) : (s.goTo p).sched = s.sched := rfl

@[simp] theorem State.goTo_fnResult (p : Phase) : (s.goTo p).fnResult = s.fnResult := rfl

@[simp] theorem State.goTo_freeCtr (p : Phase) : (s.goTo p).freeCtr = s.freeCtr := rfl

@[simp] theorem State.buf_goTo (p : Phase) (y : Buf) : (s.goTo p).buf y = s.buf y := by cases y <;> rfl

@[simp] theorem State.pend_goTo (p : Phase) (y : Buf) : (s.goTo p).pend y = s.pend y := by cases y <;> rfl

/-! ### `advanceFill` -/

@[simp] theorem State.advanceFill_bufA : (s.advanceFill).bufA = s.bufA := rfl

@[simp] theorem State.advanceFill_bufB : (s.advanceFill).bufB = s.bufB := rfl

@[simp] theorem State.advanceFill_active : (s.advanceFill).active = s.active := rfl

@[simp] theorem State.advanceFill_fill : (s.advanceFill).fill = s.fill + 1 := rfl

@[simp] theorem State.advanceFill_pendA : (s.advanceFill).pendA = s.pendA := rfl

@[simp] theorem State.advanceFill_pendB : (s.advanceFill).pendB = s.pendB := rfl

@[simp] theorem State.advanceFill_seq : (s.advanceFill).seq = s.seq := rfl

@[simp] theorem State.advanceFill_ovr : (s.advanceFill).ovr = s.ovr := rfl

@[simp] theorem State.advanceFill_range : (s.advanceFill).range = s.range := rfl

@[simp] theorem State.advanceFill_hist : (s.advanceFill).hist = s.hist := rfl

@[simp] theorem State.advanceFill_phase : (s.advanceFill).phase = s.phase := rfl

@[simp] theorem State.advanceFill_cur : (s.advanceFill).cur = s.cur := rfl

@[simp] theorem State.advanceFill_j : (s.advanceFill).j = s.j := rfl

@[simp] theorem State.advanceFill_cap : (s.advanceFill).cap = s.cap := rfl

@[simp] theorem State.advanceFill_outU : (s.advanceFill).outU = s.outU := rfl

@[simp] theorem State.advanceFill_outF : (s.advanceFill).outF = s.outF := rfl

@[simp] theorem State.advanceFill_e : (s.advanceFill).e = s.e := rfl

@[simp] theorem State.advanceFill_faults : (s.advanceFill).faults = s.faults := rfl

@[simp] theorem State.advanceFill_refusals : (s.advanceFill).refusals = s.refusals := rfl

@[simp] theorem State.advanceFill_cfg : (s.advanceFill).cfg = s.cfg := rfl

@[simp] theorem State.advanceFill_history : (s.advanceFill).history = s.history := rfl

@[simp] theorem State.advanceFill_sched : (s.advanceFill).sched = s.sched := rfl

@[simp] theorem State.advanceFill_fnResult : (s.advanceFill).fnResult = s.fnResult := rfl

@[simp] theorem State.advanceFill_freeCtr : (s.advanceFill).freeCtr = s.freeCtr := rfl

@[simp] theorem State.buf_advanceFill (y : Buf) : (s.advanceFill).buf y = s.buf y := by cases y <;> rfl

@[simp] theorem State.pend_advanceFill (y : Buf) : (s.advanceFill).pend y = s.pend y := by cases y <;> rfl

/-! ### `storeCapture` -/

@[simp] theorem State.storeCapture_bufA (c : Code) : (s.storeCapture c).bufA = s.bufA := rfl

@[simp] theorem State.storeCapture_bufB (c : Code) : (s.storeCapture c).bufB = s.bufB := rfl

@[simp] theorem State.storeCapture_active (c : Code) : (s.storeCapture c).active = s.active := rfl

@[simp] theorem State.storeCapture_fill (c : Code) : (s.storeCapture c).fill = s.fill := rfl

@[simp] theorem State.storeCapture_pendA (c : Code) : (s.storeCapture c).pendA = s.pendA := rfl

@[simp] theorem State.storeCapture_pendB (c : Code) : (s.storeCapture c).pendB = s.pendB := rfl

@[simp] theorem State.storeCapture_seq (c : Code) : (s.storeCapture c).seq = s.seq := rfl

@[simp] theorem State.storeCapture_ovr (c : Code) : (s.storeCapture c).ovr = s.ovr := rfl

@[simp] theorem State.storeCapture_range (c : Code) : (s.storeCapture c).range = s.range := rfl

@[simp] theorem State.storeCapture_hist (c : Code) : (s.storeCapture c).hist = s.hist := rfl

@[simp] theorem State.storeCapture_phase (c : Code) :
    (s.storeCapture c).phase = if s.j + 1 = s.cfg.bufLen then .compute else .capture := rfl

@[simp] theorem State.storeCapture_cur (c : Code) : (s.storeCapture c).cur = s.cur := rfl

@[simp] theorem State.storeCapture_j (c : Code) : (s.storeCapture c).j = s.j + 1 := rfl

@[simp] theorem State.storeCapture_cap (c : Code) : (s.storeCapture c).cap = s.cap.set s.j (some c) := rfl

@[simp] theorem State.storeCapture_outU (c : Code) : (s.storeCapture c).outU = s.outU := rfl

@[simp] theorem State.storeCapture_outF (c : Code) : (s.storeCapture c).outF = s.outF := rfl

@[simp] theorem State.storeCapture_e (c : Code) : (s.storeCapture c).e = s.e := rfl

@[simp] theorem State.storeCapture_faults (c : Code) : (s.storeCapture c).faults = s.faults := rfl

@[simp] theorem State.storeCapture_refusals (c : Code) : (s.storeCapture c).refusals = s.refusals := rfl

@[simp] theorem State.storeCapture_cfg (c : Code) : (s.storeCapture c).cfg = s.cfg := rfl

@[simp] theorem State.storeCapture_history (c : Code) : (s.storeCapture c).history = s.history := rfl

@[simp] theorem State.storeCapture_sched (c : Code) : (s.storeCapture c).sched = s.sched := rfl

@[simp] theorem State.storeCapture_fnResult (c : Code) : (s.storeCapture c).fnResult = s.fnResult := rfl

@[simp] theorem State.storeCapture_freeCtr (c : Code) : (s.storeCapture c).freeCtr = s.freeCtr := rfl

@[simp] theorem State.buf_storeCapture (c : Code) (y : Buf) : (s.storeCapture c).buf y = s.buf y := by cases y <;> rfl

@[simp] theorem State.pend_storeCapture (c : Code) (y : Buf) : (s.storeCapture c).pend y = s.pend y := by cases y <;> rfl

/-! ### `filterBlock` -/

@[simp] theorem State.filterBlock_bufA (r : Bool) : (s.filterBlock r).bufA = s.bufA := rfl

@[simp] theorem State.filterBlock_bufB (r : Bool) : (s.filterBlock r).bufB = s.bufB := rfl

@[simp] theorem State.filterBlock_active (r : Bool) : (s.filterBlock r).active = s.active := rfl

@[simp] theorem State.filterBlock_fill (r : Bool) : (s.filterBlock r).fill = s.fill := rfl

@[simp] theorem State.filterBlock_pendA (r : Bool) : (s.filterBlock r).pendA = s.pendA := rfl

@[simp] theorem State.filterBlock_pendB (r : Bool) : (s.filterBlock r).pendB = s.pendB := rfl

@[simp] theorem State.filterBlock_seq (r : Bool) : (s.filterBlock r).seq = s.seq := rfl

@[simp] theorem State.filterBlock_ovr (r : Bool) : (s.filterBlock r).ovr = s.ovr := rfl

@[simp] theorem State.filterBlock_range (r : Bool) : (s.filterBlock r).range = r := rfl

@[simp] theorem State.filterBlock_hist (r : Bool) :
    (s.filterBlock r).hist = (firBlock s.cfg s.hist s.scaledBlock).2 := rfl

@[simp] theorem State.filterBlock_phase (r : Bool) : (s.filterBlock r).phase = .emit := rfl

@[simp] theorem State.filterBlock_cur (r : Bool) : (s.filterBlock r).cur = s.cur := rfl

@[simp] theorem State.filterBlock_j (r : Bool) : (s.filterBlock r).j = s.j := rfl

@[simp] theorem State.filterBlock_cap (r : Bool) : (s.filterBlock r).cap = s.cap := rfl

@[simp] theorem State.filterBlock_outU (r : Bool) : (s.filterBlock r).outU = s.scaledBlock.map some := rfl

@[simp] theorem State.filterBlock_outF (r : Bool) :
    (s.filterBlock r).outF = (firBlock s.cfg s.hist s.scaledBlock).1.map some := rfl

@[simp] theorem State.filterBlock_e (r : Bool) : (s.filterBlock r).e = 0 := rfl

@[simp] theorem State.filterBlock_faults (r : Bool) : (s.filterBlock r).faults = s.faults := rfl

@[simp] theorem State.filterBlock_refusals (r : Bool) : (s.filterBlock r).refusals = s.refusals := rfl

@[simp] theorem State.filterBlock_cfg (r : Bool) : (s.filterBlock r).cfg = s.cfg := rfl

@[simp] theorem State.filterBlock_history (r : Bool) : (s.filterBlock r).history = s.history := rfl

@[simp] theorem State.filterBlock_sched (r : Bool) : (s.filterBlock r).sched = s.sched := rfl

@[simp] theorem State.filterBlock_fnResult (r : Bool) : (s.filterBlock r).fnResult = s.fnResult := rfl

@[simp] theorem State.filterBlock_freeCtr (r : Bool) : (s.filterBlock r).freeCtr = s.freeCtr + 1 := rfl

@[simp] theorem State.buf_filterBlock (r : Bool) (y : Buf) : (s.filterBlock r).buf y = s.buf y := by cases y <;> rfl

@[simp] theorem State.pend_filterBlock (r : Bool) (y : Buf) : (s.filterBlock r).pend y = s.pend y := by cases y <;> rfl

/-! ### `advanceEmit` -/

@[simp] theorem State.advanceEmit_bufA : (s.advanceEmit).bufA = s.bufA := rfl

@[simp] theorem State.advanceEmit_bufB : (s.advanceEmit).bufB = s.bufB := rfl

@[simp] theorem State.advanceEmit_active : (s.advanceEmit).active = s.active := rfl

@[simp] theorem State.advanceEmit_fill : (s.advanceEmit).fill = s.fill := rfl

@[simp] theorem State.advanceEmit_pendA : (s.advanceEmit).pendA = s.pendA := rfl

@[simp] theorem State.advanceEmit_pendB : (s.advanceEmit).pendB = s.pendB := rfl

@[simp] theorem State.advanceEmit_seq : (s.advanceEmit).seq = s.seq := rfl

@[simp] theorem State.advanceEmit_ovr : (s.advanceEmit).ovr = s.ovr := rfl

@[simp] theorem State.advanceEmit_range : (s.advanceEmit).range = s.range := rfl

@[simp] theorem State.advanceEmit_hist : (s.advanceEmit).hist = s.hist := rfl

@[simp] theorem State.advanceEmit_phase :
    (s.advanceEmit).phase = if s.e + 1 = s.cfg.bufLen then phaseAfterLast s.cur else .emit := rfl

@[simp] theorem State.advanceEmit_cur : (s.advanceEmit).cur = s.cur := rfl

@[simp] theorem State.advanceEmit_j : (s.advanceEmit).j = s.j := rfl

@[simp] theorem State.advanceEmit_cap : (s.advanceEmit).cap = s.cap := rfl

@[simp] theorem State.advanceEmit_outU : (s.advanceEmit).outU = s.outU := rfl

@[simp] theorem State.advanceEmit_outF : (s.advanceEmit).outF = s.outF := rfl

@[simp] theorem State.advanceEmit_e : (s.advanceEmit).e = s.e + 1 := rfl

@[simp] theorem State.advanceEmit_faults : (s.advanceEmit).faults = s.faults := rfl

@[simp] theorem State.advanceEmit_refusals : (s.advanceEmit).refusals = s.refusals := rfl

@[simp] theorem State.advanceEmit_cfg : (s.advanceEmit).cfg = s.cfg := rfl

@[simp] theorem State.advanceEmit_history : (s.advanceEmit).history = s.history := rfl

@[simp] theorem State.advanceEmit_sched : (s.advanceEmit).sched = s.sched := rfl

@[simp] theorem State.advanceEmit_fnResult : (s.advanceEmit).fnResult = s.fnResult := rfl

@[simp] theorem State.advanceEmit_freeCtr : (s.advanceEmit).freeCtr = s.freeCtr + 1 := rfl

@[simp] theorem State.buf_advanceEmit (y : Buf) : (s.advanceEmit).buf y = s.buf y := by cases y <;> rfl

@[simp] theorem State.pend_advanceEmit (y : Buf) : (s.advanceEmit).pend y = s.pend y := by cases y <;> rfl

/-! ### `ctrlClear` -/

@[simp] theorem State.ctrlClear_bufA (w : Word) : (s.ctrlClear w).bufA = s.bufA := rfl

@[simp] theorem State.ctrlClear_bufB (w : Word) : (s.ctrlClear w).bufB = s.bufB := rfl

@[simp] theorem State.ctrlClear_active (w : Word) : (s.ctrlClear w).active = s.active := rfl

@[simp] theorem State.ctrlClear_fill (w : Word) : (s.ctrlClear w).fill = s.fill := rfl

@[simp] theorem State.ctrlClear_pendA (w : Word) : (s.ctrlClear w).pendA = s.pendA := rfl

@[simp] theorem State.ctrlClear_pendB (w : Word) : (s.ctrlClear w).pendB = s.pendB := rfl

@[simp] theorem State.ctrlClear_seq (w : Word) : (s.ctrlClear w).seq = s.seq := rfl

@[simp] theorem State.ctrlClear_ovr (w : Word) : (s.ctrlClear w).ovr = (s.ovr && !(ctrlOvrClr w)) := rfl

@[simp] theorem State.ctrlClear_range (w : Word) : (s.ctrlClear w).range = (s.range && !(ctrlRangeClr w)) := rfl

@[simp] theorem State.ctrlClear_hist (w : Word) : (s.ctrlClear w).hist = s.hist := rfl

@[simp] theorem State.ctrlClear_phase (w : Word) : (s.ctrlClear w).phase = s.phase := rfl

@[simp] theorem State.ctrlClear_cur (w : Word) : (s.ctrlClear w).cur = s.cur := rfl

@[simp] theorem State.ctrlClear_j (w : Word) : (s.ctrlClear w).j = s.j := rfl

@[simp] theorem State.ctrlClear_cap (w : Word) : (s.ctrlClear w).cap = s.cap := rfl

@[simp] theorem State.ctrlClear_outU (w : Word) : (s.ctrlClear w).outU = s.outU := rfl

@[simp] theorem State.ctrlClear_outF (w : Word) : (s.ctrlClear w).outF = s.outF := rfl

@[simp] theorem State.ctrlClear_e (w : Word) : (s.ctrlClear w).e = s.e := rfl

@[simp] theorem State.ctrlClear_faults (w : Word) : (s.ctrlClear w).faults = s.faults := rfl

@[simp] theorem State.ctrlClear_refusals (w : Word) : (s.ctrlClear w).refusals = s.refusals := rfl

@[simp] theorem State.ctrlClear_cfg (w : Word) : (s.ctrlClear w).cfg = s.cfg := rfl

@[simp] theorem State.ctrlClear_history (w : Word) : (s.ctrlClear w).history = s.history := rfl

@[simp] theorem State.ctrlClear_sched (w : Word) : (s.ctrlClear w).sched = s.sched := rfl

@[simp] theorem State.ctrlClear_fnResult (w : Word) : (s.ctrlClear w).fnResult = s.fnResult := rfl

@[simp] theorem State.ctrlClear_freeCtr (w : Word) : (s.ctrlClear w).freeCtr = s.freeCtr := rfl

@[simp] theorem State.buf_ctrlClear (w : Word) (y : Buf) : (s.ctrlClear w).buf y = s.buf y := by cases y <;> rfl

@[simp] theorem State.pend_ctrlClear (w : Word) (y : Buf) : (s.ctrlClear w).pend y = s.pend y := by cases y <;> rfl

/-! ### The paired accessors -/

@[simp] theorem State.buf_setBuf_same (x : Buf) (m : Memory) : (s.setBuf x m).buf x = m := by cases x <;> rfl

theorem State.buf_setBuf_ne (x y : Buf) (m : Memory) (h : y ≠ x) : (s.setBuf x m).buf y = s.buf y := by
  cases x <;> cases y <;> first | rfl | exact absurd rfl h

@[simp] theorem State.pend_setPend_same (x : Buf) (v : Bool) : (s.setPend x v).pend x = v := by cases x <;> rfl

theorem State.pend_setPend_ne (x y : Buf) (v : Bool) (h : y ≠ x) : (s.setPend x v).pend y = s.pend y := by
  cases x <;> cases y <;> first | rfl | exact absurd rfl h

@[simp] theorem State.buf_setPend (x y : Buf) (v : Bool) : (s.setPend x v).buf y = s.buf y := by
  cases x <;> cases y <;> rfl

@[simp] theorem State.pend_setBuf (x y : Buf) (m : Memory) : (s.setBuf x m).pend y = s.pend y := by
  cases x <;> cases y <;> rfl

@[simp] theorem State.buf_record (x : Buf) (ev : Event) : (s.record ev).buf x = s.buf x := by cases x <;> rfl

@[simp] theorem State.pend_record (x : Buf) (ev : Event) : (s.record ev).pend x = s.pend x := by cases x <;> rfl

@[simp] theorem State.buf_raise (x : Buf) (f : FaultRecord) : (s.raise f).buf x = s.buf x := by cases x <;> rfl

@[simp] theorem State.pend_raise (x : Buf) (f : FaultRecord) : (s.raise f).pend x = s.pend x := by cases x <;> rfl

@[simp] theorem State.buf_answer (x : Buf) (r : FnResult) : (s.answer r).buf x = s.buf x := by cases x <;> rfl

@[simp] theorem State.pend_answer (x : Buf) (r : FnResult) : (s.answer r).pend x = s.pend x := by cases x <;> rfl

@[simp] theorem State.buf_refuse (x : Buf) (r : RefusalRecord) : (s.refuse r).buf x = s.buf x := by cases x <;> rfl

@[simp] theorem State.pend_refuse (x : Buf) (r : RefusalRecord) : (s.refuse r).pend x = s.pend x := by cases x <;> rfl

/-- Both buffers are as before when the two fields are. -/
theorem State.buf_congr {s t : State} (ha : t.bufA = s.bufA) (hb : t.bufB = s.bufB) (x : Buf) : t.buf x = s.buf x := by
  cases x <;> assumption

/-- Both flags are as before when the two fields are. -/
theorem State.pend_congr {s t : State} (ha : t.pendA = s.pendA) (hb : t.pendB = s.pendB) (x : Buf) :
    t.pend x = s.pend x := by
  cases x <;> assumption

/-! ### `other` -/

@[simp] theorem Buf.other_ne (x : Buf) : x.other ≠ x := by cases x <;> decide

@[simp] theorem Buf.ne_other (x : Buf) : x ≠ x.other := by cases x <;> decide

@[simp] theorem Buf.other_other (x : Buf) : x.other.other = x := by cases x <;> rfl

theorem Buf.eq_other_of_ne {x y : Buf} (h : y ≠ x) : y = x.other := by cases x <;> cases y <;> first | rfl | exact absurd rfl h

end Sys2Proof.Machine
end

