-- ==== Sys2Proof/Laws/Ops.lean ====
section
/-! SUPPORT. Everything a shared operation can do, once: inversion lemmas for the guards and the bus operations, and what
a stored sample, an acknowledge and a RESET leave. -/

namespace Sys2Proof.Machine

theorem whenRunning_eq (s : State) (r : Result) (h : s.faults = []) : whenRunning s r = r := by simp [whenRunning, h]

/-- In a faulted state every step answers the same fault (R37). -/
theorem whenRunning_faulted (s : State) (r : Result) (h : s.faults ≠ []) : whenRunning s r = .fault .quiescent := by
  simp [whenRunning, h]

theorem whenRunning_next {s t : State} {r : Result} : whenRunning s r = .next t ↔ s.faults = [] ∧ r = .next t := by
  unfold whenRunning
  by_cases h : s.faults = [] <;> simp [h]

theorem whenEnabled_next {s t : State} {k : BitVec 4} {p : Bool} {r : Result} :
    whenEnabled s k p r = .next t ↔ s.faults = [] ∧ p = true ∧ r = .next t := by
  unfold whenEnabled
  rw [whenRunning_next]
  by_cases h : p = true <;> simp [h]

theorem whenInRange_next {s t : State} {i : Nat} {r : Result} :
    whenInRange s i r = .next t ↔ i < s.cfg.bufLen ∧ r = .next t := by
  unfold whenInRange
  by_cases h : i < s.cfg.bufLen <;> simp [h]

theorem busRead_next {s t : State} {a : BitVec 8} {w : Word} {r : BusResp} :
    busRead s a w r = .next t ↔ s.faults = [] ∧ t = s.record (.busRd (busBundle false a w) r) := by
  rw [busRead, whenRunning_next, Host.Outcome.next.injEq, eq_comm (b := t)]

theorem busWrite_next {s u t : State} {a : BitVec 8} {w : Word} {r : BusResp} :
    busWrite s u a w r = .next t ↔ s.faults = [] ∧ t = u.record (.busWr (busBundle true a w) r) := by
  rw [busWrite, whenRunning_next, Host.Outcome.next.injEq, eq_comm (b := t)]

theorem noStep_next {s t : State} : noStep s = .next t ↔ s.faults = [] ∧ t = s := by
  rw [noStep, whenRunning_next, Host.Outcome.next.injEq, eq_comm (b := t)]

theorem refuseSample_next {s t : State} {b : BitVec 17} :
    refuseSample b s = .next t ↔ s.faults = [] ∧ t = s.refuse (.sampleReservedBits b) := by
  rw [refuseSample, whenRunning_next, Host.Outcome.next.injEq, eq_comm (b := t)]

theorem rejectEvent_not_next {s t : State} {k : BitVec 4} : rejectEvent k s ≠ .next t := by
  simp [rejectEvent, whenRunning_next]

/-! ### The store of a sample -/

/-- `corrupt` in words. -/
theorem State.corrupt_iff (s : State) :
    s.corrupt = true ↔ s.pend s.active = true ∨ (s.phase = .capture ∧ s.cur = s.active ∧ s.j ≤ s.fill) := by
  simp [State.corrupt, and_assoc]

/-- A stored sample is read back at (ACTIVE, FILL), and every other element reads as before. -/
theorem State.read_storeSample (s : State) (c : Code) (x : Buf) (k : Nat) :
    ((s.storeSample c).buf x).read k = if x = s.active ∧ k = s.fill then some c else (s.buf x).read k := by
  have hb : (s.storeSample c).buf x = (s.setBuf s.active ((s.buf s.active).write s.fill c)).buf x := by cases x <;> rfl
  rw [hb]
  by_cases hx : x = s.active
  · subst hx; simp [Memory.read_write]
  · simp [State.buf_setBuf_ne _ _ _ _ hx, hx]

@[simp] theorem State.pend_storeSample (s : State) (c : Code) (x : Buf) : (s.storeSample c).pend x = s.pend x := by
  cases x <;> simp [State.storeSample, State.pend]

@[simp] theorem State.buf_swapBuffers (s : State) (x : Buf) : s.swapBuffers.buf x = s.buf x := by
  cases x <;> simp [State.swapBuffers, State.buf]

theorem State.pend_swapBuffers (s : State) (x : Buf) :
    s.swapBuffers.pend x = if x = s.active then true else s.pend x := by
  have hb : s.swapBuffers.pend x = (s.setPend s.active true).pend x := by cases x <;> rfl
  rw [hb]
  by_cases hx : x = s.active
  · subst hx; simp
  · simp [State.pend_setPend_ne _ _ _ _ hx, hx]

/-- Reading any element after a `WRITE` step. -/
theorem State.read_writeStep (s : State) (c : Code) (x : Buf) (k : Nat) :
    ((s.writeStep c).buf x).read k = if x = s.active ∧ k = s.fill then some c else (s.buf x).read k := by
  unfold State.writeStep
  split
  · rw [State.buf_record, State.buf_swapBuffers, State.read_storeSample]
  · rw [State.buf_record]
    rw [State.buf_advanceFill, State.read_storeSample]

/-- Any flag after a `WRITE` step: set for the buffer it fills, else as before. -/
theorem State.pend_writeStep (s : State) (c : Code) (x : Buf) :
    (s.writeStep c).pend x = if x = s.active ∧ s.fill + 1 = s.cfg.bufLen then true else s.pend x := by
  unfold State.writeStep
  split
  · rename_i h
    rw [State.pend_record, State.pend_swapBuffers]
    simp [h]
  · rename_i h
    rw [State.pend_record]
    simp [h]

theorem State.wf_writeStep (s : State) (c : Code) (h : ∀ x, (s.buf x).wf = true) (x : Buf) :
    ((s.writeStep c).buf x).wf = true := by
  have hst : ((s.storeSample c).buf x).wf = true := by
    have hb : (s.storeSample c).buf x = (s.setBuf s.active ((s.buf s.active).write s.fill c)).buf x := by cases x <;> rfl
    rw [hb]
    by_cases hx : x = s.active
    · subst hx; simp [Memory.write_wf _ _ _ (h _)]
    · rw [State.buf_setBuf_ne _ _ _ _ hx]; exact h x
  unfold State.writeStep
  split
  · simpa using hst
  · rw [State.buf_record]
    simpa using hst

/-! ### Acknowledging -/

@[simp] theorem State.buf_acknowledge (s : State) (x y : Buf) : (s.acknowledge x).buf y = s.buf y := by
  cases x <;> cases y <;> rfl

theorem State.pend_acknowledge (s : State) (x y : Buf) :
    (s.acknowledge x).pend y = if y = x then false else s.pend y := by
  cases x <;> cases y <;> rfl

@[simp] theorem State.buf_check (s : State) (x y : Buf) (p : Phase) : (s.check x p).buf y = s.buf y := by
  unfold State.check; split
  · simp
  · simp

theorem State.pend_check (s : State) (x y : Buf) (p : Phase) :
    (s.check x p).pend y = if y = x then false else s.pend y := by
  unfold State.check
  split
  · exact State.pend_acknowledge s x y
  · rename_i h
    rw [State.pend_goTo]
    by_cases hy : y = x
    · subst hy; simpa using h
    · simp [hy]

/-! ### RESET -/

/-- `RESET` gives the state of a new instance of the same configuration, but for `FAULTS`, `REFUSED` and the model's own
fields (R21, R240). -/
theorem State.resetFields_eq (s : State) :
    s.resetFields = { State.resetOf s.cfg with
      faults := s.faults, refusals := s.refusals, history := s.history, sched := s.sched
      fnResult := s.fnResult, freeCtr := s.freeCtr } := rfl

end Sys2Proof.Machine
end

