-- ==== Sys2Proof/Laws/Ports.lean ====
section
/-! SUPPORT. The fields of a bundle are read back from it. -/

namespace Sys2Proof.Laws

open Sys2Proof.Machine

theorem sampleBundle_getLsbD (c : Code) (i : Nat) :
    (sampleBundle c).getLsbD i = if i < 16 then c.getLsbD i else (1#1).getLsbD (i - 16) := BitVec.getLsbD_append

theorem busBundle_getLsbD (we : Bool) (a : BitVec 8) (w : Word) (i : Nat) :
    (busBundle we a w).getLsbD i =
      if i < 32 then w.getLsbD i else (BitVec.ofBool we ++ a).getLsbD (i - 32) := BitVec.getLsbD_append

@[simp] theorem sampleValid_bundle (c : Code) : sampleValid (sampleBundle c) = true := by
  rw [sampleValid, sampleBundle_getLsbD]; rfl

@[simp] theorem sampleCode_bundle (c : Code) : sampleCode (sampleBundle c) = c := by
  apply BitVec.eq_of_getLsbD_eq
  intro i hi
  simp [sampleCode, sampleBundle_getLsbD, hi]

@[simp] theorem busWe_bundle (we : Bool) (a : BitVec 8) (w : Word) : busWe (busBundle we a w) = we := by
  rw [busWe, busBundle_getLsbD, if_neg (by decide), BitVec.getLsbD_append]
  cases we <;> rfl

@[simp] theorem busAddr_bundle (we : Bool) (a : BitVec 8) (w : Word) : busAddr (busBundle we a w) = a := by
  apply BitVec.eq_of_getLsbD_eq
  intro i hi
  rw [busAddr, BitVec.getLsbD_extractLsb', busBundle_getLsbD, if_neg (by omega), BitVec.getLsbD_append]
  simp [hi]

@[simp] theorem busWdata_bundle (we : Bool) (a : BitVec 8) (w : Word) : busWdata (busBundle we a w) = w := by
  apply BitVec.eq_of_getLsbD_eq
  intro i hi
  simp [busWdata, busBundle_getLsbD, hi]

end Sys2Proof.Laws
end

