-- ==== Sys2Proof/Laws/Exec.lean ====
section
/-! SUPPORT. One inversion lemma per instruction: exactly when `exec` answers a next state, and which. Later proofs cite
these and unfold no meaning. -/

namespace Sys2Proof.Machine

variable {s t : State}

theorem exec_reset_next : exec .reset s = .next t ↔ s.faults = [] ∧ t = s.resetFields.record .reset := by
  rw [exec, execReset, whenRunning_next, Host.Outcome.next.injEq, eq_comm (b := t)]

theorem exec_write_next {c : Code} :
    exec (.write c) s = .next t ↔ s.faults = [] ∧
      ((codeFits s.cfg.codeWidth c = true ∧ s.fill < s.cfg.bufLen ∧ t = s.writeStep c) ∨
       (codeFits s.cfg.codeWidth c = false ∧ t = s.refuse (.sampleReservedBits (sampleBundle c)))) := by
  rw [exec, execWrite, whenRunning_next]
  cases h : codeFits s.cfg.codeWidth c
  · simp [eq_comm]
  · simp only [if_true, whenInRange_next, Host.Outcome.next.injEq, eq_comm (b := t)]; simp

theorem exec_start_next :
    exec .start s = .next t ↔ s.faults = [] ∧ s.phase = .idle ∧ s.irq = true ∧ t = (s.goTo .checkA).record .start := by
  rw [exec, execStart, whenEnabled_next, Host.Outcome.next.injEq, eq_comm (b := t)]
  simp [and_assoc]

theorem exec_checkA_next :
    exec .checkA s = .next t ↔ s.faults = [] ∧ s.phase = .checkA ∧ t = (s.check .A .checkB).record .checkA := by
  rw [exec, execCheckA, whenEnabled_next, Host.Outcome.next.injEq, eq_comm (b := t), decide_eq_true_eq]

theorem exec_checkB_next :
    exec .checkB s = .next t ↔ s.faults = [] ∧ s.phase = .checkB ∧ t = (s.check .B .idle).record .checkB := by
  rw [exec, execCheckB, whenEnabled_next, Host.Outcome.next.injEq, eq_comm (b := t), decide_eq_true_eq]

theorem exec_capture_next :
    exec .capture s = .next t ↔ s.faults = [] ∧ s.phase = .capture ∧ s.j < s.cfg.bufLen ∧ t = s.captureStep := by
  rw [exec, execCapture, whenEnabled_next, whenInRange_next, Host.Outcome.next.injEq, eq_comm (b := t), decide_eq_true_eq]

theorem exec_compute_next :
    exec .compute s = .next t ↔ s.faults = [] ∧ s.phase = .compute ∧ t = s.computeStep := by
  rw [exec, execCompute, whenEnabled_next, Host.Outcome.next.injEq, eq_comm (b := t), decide_eq_true_eq]

theorem exec_emit_next :
    exec .emit s = .next t ↔ s.faults = [] ∧ s.phase = .emit ∧ s.e < s.cfg.bufLen ∧ t = s.emitStep := by
  rw [exec, execEmit, whenEnabled_next, whenInRange_next, Host.Outcome.next.injEq, eq_comm (b := t), decide_eq_true_eq]

theorem exec_rdStatus_next {w : Word} : exec (.rdStatus w) s = .next t ↔
    s.faults = [] ∧ t = s.record (.busRd (busBundle false 0x00#8 w) (okay s.statusWord)) := busRead_next

theorem exec_rdSeq_next {w : Word} : exec (.rdSeq w) s = .next t ↔
    s.faults = [] ∧ t = s.record (.busRd (busBundle false 0x04#8 w) (okay s.seq)) := busRead_next

theorem exec_rdCtrl_next {w : Word} : exec (.rdCtrl w) s = .next t ↔
    s.faults = [] ∧ t = s.record (.busRd (busBundle false 0x08#8 w) (okay 0#32)) := busRead_next

theorem exec_rdCfg_next {w : Word} : exec (.rdCfg w) s = .next t ↔
    s.faults = [] ∧ t = s.record (.busRd (busBundle false 0x0C#8 w) (okay (cfgWord s.cfg))) := busRead_next

theorem exec_wrStatus_next {w : Word} : exec (.wrStatus w) s = .next t ↔
    s.faults = [] ∧ t = s.record (.busWr (busBundle true 0x00#8 w) (okay 0#32)) := busWrite_next

theorem exec_wrSeq_next {w : Word} : exec (.wrSeq w) s = .next t ↔
    s.faults = [] ∧ t = s.record (.busWr (busBundle true 0x04#8 w) (okay 0#32)) := busWrite_next

theorem exec_wrCtrl_next {w : Word} : exec (.wrCtrl w) s = .next t ↔
    s.faults = [] ∧ t = (s.ctrlClear w).record (.busWr (busBundle true 0x08#8 w) (okay 0#32)) := busWrite_next

theorem exec_wrCfg_next {w : Word} : exec (.wrCfg w) s = .next t ↔
    s.faults = [] ∧ t = s.record (.busWr (busBundle true 0x0C#8 w) (okay 0#32)) := busWrite_next

theorem exec_busErr_next {we : Bool} {a : BitVec 8} {w : Word} : exec (.busErr we a w) s = .next t ↔
    s.faults = [] ∧ t = s.record (if we then .busWr (busBundle true a w) errResp else .busRd (busBundle false a w) errResp) := by
  cases we
  · exact busRead_next
  · exact busWrite_next

theorem exec_scale_next {c : Code} : exec (.scale c) s = .next t ↔
    codeFits s.cfg.codeWidth c = true ∧ t = s.answer (.scaled (scaleFn s.cfg c)) := by
  rw [exec, execScale]
  by_cases h : codeFits s.cfg.codeWidth c = true <;> simp [h, eq_comm]

theorem exec_fir_next {h v : List Val} : exec (.fir h v) s = .next t ↔
    (h.length = s.cfg.taps - 1 ∧ v.length = s.cfg.bufLen) ∧
      t = s.answer (.filtered (firBlock s.cfg h v).1 (firBlock s.cfg h v).2) := by
  rw [exec, execFir]
  by_cases hl : h.length = s.cfg.taps - 1 ∧ v.length = s.cfg.bufLen
  · rw [if_pos hl, Host.Outcome.next.injEq, eq_comm (b := t)]; simp [hl]
  · rw [if_neg hl]; simp [hl]

/-- `CAPTURE` either raises `UNWRITTEN_READ` or stores the code it read (R141). -/
theorem State.captureStep_cases (s : State) :
    ((s.buf s.cur).read s.j = none ∧ s.captureStep = (s.raise (.unwrittenRead s.cur s.j)).record .capture) ∨
    (∃ c, (s.buf s.cur).read s.j = some c ∧ s.captureStep = (s.storeCapture c).record .capture) := by
  unfold State.captureStep
  cases h : (s.buf s.cur).read s.j with
  | none => exact .inl ⟨rfl, rfl⟩
  | some c => exact .inr ⟨c, rfl, rfl⟩

/-- `COMPUTE` either raises `CODE_RANGE` or filters the block (R142, R173). -/
theorem State.computeStep_cases (s : State) :
    (∃ i, s.firstAboveMax = some i ∧ s.cfg.rangePolicy = .fault ∧
      s.computeStep = (s.raise (.codeRange i (s.capCode i))).record .compute) ∨
    (∃ r, s.computeStep = (s.filterBlock r).record .compute ∧
      ((s.firstAboveMax = none ∧ r = s.range) ∨
       (s.firstAboveMax ≠ none ∧ s.cfg.rangePolicy = .compute ∧ r = true))) := by
  unfold State.computeStep
  cases h : s.firstAboveMax with
  | none => exact .inr ⟨s.range, by cases s.cfg.rangePolicy <;> rfl, .inl ⟨rfl, rfl⟩⟩
  | some i =>
    cases hp : s.cfg.rangePolicy with
    | fault => exact .inl ⟨i, rfl, rfl, rfl⟩
    | compute => exact .inr ⟨true, rfl, .inr ⟨by simp, rfl, rfl⟩⟩

/-- What `WRITE` does beside its store, field by field (R101). -/
theorem State.writeStep_fields (s : State) (c : Code) :
    (s.writeStep c).ovr = (s.ovr || s.corrupt) ∧ (s.writeStep c).range = s.range ∧
    (s.writeStep c).hist = s.hist ∧ (s.writeStep c).phase = s.phase ∧ (s.writeStep c).cur = s.cur ∧
    (s.writeStep c).j = s.j ∧ (s.writeStep c).cap = s.cap ∧ (s.writeStep c).outU = s.outU ∧
    (s.writeStep c).outF = s.outF ∧ (s.writeStep c).e = s.e ∧ (s.writeStep c).faults = s.faults ∧
    (s.writeStep c).refusals = s.refusals ∧ (s.writeStep c).cfg = s.cfg ∧ (s.writeStep c).sched = s.sched ∧
    (s.writeStep c).fnResult = s.fnResult ∧ (s.writeStep c).freeCtr = s.freeCtr := by
  unfold State.writeStep; split <;> simp

/-- What the fill changes and a plain store does not (R101). -/
theorem State.writeStep_swap (s : State) (c : Code) :
    (s.fill + 1 = s.cfg.bufLen ∧ (s.writeStep c).fill = 0 ∧ (s.writeStep c).seq = s.seq + 1#32 ∧
      (s.writeStep c).active = s.active.other ∧ (s.writeStep c).history = .write c (readyOf s.active) :: s.history) ∨
    (s.fill + 1 ≠ s.cfg.bufLen ∧ (s.writeStep c).fill = s.fill + 1 ∧ (s.writeStep c).seq = s.seq ∧
      (s.writeStep c).active = s.active ∧ (s.writeStep c).history = .write c .none :: s.history) := by
  unfold State.writeStep; split <;> simp [*]

/-- What a check of condition `x` leaves, beside the flag (R122, R123). -/
theorem State.check_cases (s : State) (x : Buf) (p : Phase) :
    (s.pend x = true ∧ s.check x p = s.acknowledge x) ∨ (s.pend x = false ∧ s.check x p = s.goTo p) := by
  unfold State.check
  cases h : s.pend x
  · exact .inr ⟨rfl, by simp⟩
  · exact .inl ⟨rfl, by simp⟩

/-- The fields no check touches. -/
theorem State.check_fields (s : State) (x : Buf) (p : Phase) :
    (s.check x p).active = s.active ∧ (s.check x p).fill = s.fill ∧ (s.check x p).seq = s.seq ∧
    (s.check x p).ovr = s.ovr ∧ (s.check x p).range = s.range ∧ (s.check x p).hist = s.hist ∧
    (s.check x p).cap = s.cap ∧ (s.check x p).outU = s.outU ∧ (s.check x p).outF = s.outF ∧
    (s.check x p).e = s.e ∧ (s.check x p).faults = s.faults ∧ (s.check x p).refusals = s.refusals ∧
    (s.check x p).cfg = s.cfg ∧ (s.check x p).history = s.history ∧ (s.check x p).sched = s.sched ∧
    (s.check x p).fnResult = s.fnResult ∧ (s.check x p).freeCtr = s.freeCtr := by
  unfold State.check; split <;> simp

/-- Everything a next state of `exec` can be, by shape: the bus operations but the `CTRL` write only record themselves, and
the two function rows only write the model's own result. -/
inductive Taken (s : State) : Instr → State → Prop where
  | reset (h : s.faults = []) : Taken s .reset (s.resetFields.record .reset)
  | write (c : Code) (h : s.faults = []) (hc : codeFits s.cfg.codeWidth c = true) (hl : s.fill < s.cfg.bufLen) :
      Taken s (.write c) (s.writeStep c)
  | refused (c : Code) (h : s.faults = []) (hc : codeFits s.cfg.codeWidth c = false) :
      Taken s (.write c) (s.refuse (.sampleReservedBits (sampleBundle c)))
  | busRd (i : Instr) (b : BitVec 41) (r : BusResp) (h : s.faults = [])
      (hi : i ∈ [Instr.rdStatus (busWdata b), .rdSeq (busWdata b), .rdCtrl (busWdata b), .rdCfg (busWdata b),
        .busErr false (busAddr b) (busWdata b)]) : Taken s i (s.record (.busRd b r))
  | busWr (i : Instr) (b : BitVec 41) (r : BusResp) (h : s.faults = [])
      (hi : i ∈ [Instr.wrStatus (busWdata b), .wrSeq (busWdata b), .wrCfg (busWdata b),
        .busErr true (busAddr b) (busWdata b)]) : Taken s i (s.record (.busWr b r))
  | wrCtrl (w : Word) (h : s.faults = []) :
      Taken s (.wrCtrl w) ((s.ctrlClear w).record (.busWr (busBundle true 0x08#8 w) (okay 0#32)))
  | start (h : s.faults = []) (hp : s.phase = .idle) (hi : s.irq = true) :
      Taken s .start ((s.goTo .checkA).record .start)
  | checkA (h : s.faults = []) (hp : s.phase = .checkA) : Taken s .checkA ((s.check .A .checkB).record .checkA)
  | checkB (h : s.faults = []) (hp : s.phase = .checkB) : Taken s .checkB ((s.check .B .idle).record .checkB)
  | unwritten (h : s.faults = []) (hp : s.phase = .capture) (hj : s.j < s.cfg.bufLen)
      (hr : (s.buf s.cur).read s.j = none) :
      Taken s .capture ((s.raise (.unwrittenRead s.cur s.j)).record .capture)
  | capture (c : Code) (h : s.faults = []) (hp : s.phase = .capture) (hj : s.j < s.cfg.bufLen)
      (hr : (s.buf s.cur).read s.j = some c) : Taken s .capture ((s.storeCapture c).record .capture)
  | codeRange (k : Nat) (h : s.faults = []) (hp : s.phase = .compute) (hk : s.firstAboveMax = some k) :
      Taken s .compute ((s.raise (.codeRange k (s.capCode k))).record .compute)
  | compute (r : Bool) (h : s.faults = []) (hp : s.phase = .compute)
      (hr : (s.firstAboveMax = none ∧ r = s.range) ∨
        (s.firstAboveMax ≠ none ∧ s.cfg.rangePolicy = .compute ∧ r = true)) :
      Taken s .compute ((s.filterBlock r).record .compute)
  | emit (h : s.faults = []) (hp : s.phase = .emit) (he : s.e < s.cfg.bufLen) : Taken s .emit s.emitStep
  | scale (c : Code) : Taken s (.scale c) (s.answer (.scaled (scaleFn s.cfg c)))
  | fir (h v : List Val) :
      Taken s (.fir h v) (s.answer (.filtered (firBlock s.cfg h v).1 (firBlock s.cfg h v).2))

theorem exec_taken {i : Instr} (h : exec i s = .next t) : Taken s i t := by
  cases i with
  | reset => obtain ⟨h1, rfl⟩ := exec_reset_next.1 h; exact .reset h1
  | write c =>
    obtain ⟨h1, ⟨h2, h3, rfl⟩ | ⟨h2, rfl⟩⟩ := exec_write_next.1 h
    · exact .write c h1 h2 h3
    · exact .refused c h1 h2
  | rdStatus w => obtain ⟨h1, rfl⟩ := exec_rdStatus_next.1 h; exact .busRd _ _ _ h1 (by simp)
  | rdSeq w => obtain ⟨h1, rfl⟩ := exec_rdSeq_next.1 h; exact .busRd _ _ _ h1 (by simp)
  | rdCtrl w => obtain ⟨h1, rfl⟩ := exec_rdCtrl_next.1 h; exact .busRd _ _ _ h1 (by simp)
  | rdCfg w => obtain ⟨h1, rfl⟩ := exec_rdCfg_next.1 h; exact .busRd _ _ _ h1 (by simp)
  | wrStatus w => obtain ⟨h1, rfl⟩ := exec_wrStatus_next.1 h; exact .busWr _ _ _ h1 (by simp)
  | wrSeq w => obtain ⟨h1, rfl⟩ := exec_wrSeq_next.1 h; exact .busWr _ _ _ h1 (by simp)
  | wrCtrl w => obtain ⟨h1, rfl⟩ := exec_wrCtrl_next.1 h; exact .wrCtrl w h1
  | wrCfg w => obtain ⟨h1, rfl⟩ := exec_wrCfg_next.1 h; exact .busWr _ _ _ h1 (by simp)
  | busErr we a w =>
    obtain ⟨h1, rfl⟩ := exec_busErr_next.1 h
    cases we
    · exact .busRd _ _ _ h1 (by simp)
    · exact .busWr _ _ _ h1 (by simp)
  | start => obtain ⟨h1, h2, h3, rfl⟩ := exec_start_next.1 h; exact .start h1 h2 h3
  | checkA => obtain ⟨h1, h2, rfl⟩ := exec_checkA_next.1 h; exact .checkA h1 h2
  | checkB => obtain ⟨h1, h2, rfl⟩ := exec_checkB_next.1 h; exact .checkB h1 h2
  | capture =>
    obtain ⟨h1, h2, h3, rfl⟩ := exec_capture_next.1 h
    rcases s.captureStep_cases with ⟨h4, h5⟩ | ⟨c, h4, h5⟩ <;> rw [h5]
    · exact .unwritten h1 h2 h3 h4
    · exact .capture c h1 h2 h3 h4
  | compute =>
    obtain ⟨h1, h2, rfl⟩ := exec_compute_next.1 h
    rcases s.computeStep_cases with ⟨k, h3, _, h5⟩ | ⟨r, h5, h6⟩ <;> rw [h5]
    · exact .codeRange k h1 h2 h3
    · exact .compute r h1 h2 h6
  | emit => obtain ⟨h1, h2, h3, rfl⟩ := exec_emit_next.1 h; exact .emit h1 h2 h3
  | scale c => obtain ⟨_, rfl⟩ := exec_scale_next.1 h; exact .scale c
  | fir a b => obtain ⟨_, rfl⟩ := exec_fir_next.1 h; exact .fir a b

end Sys2Proof.Machine
end

