-- ==== Sys2Proof/Laws/Invariant.lean ====
section
/-! SUPPORT. A check that evaluates, for the invariant of R39, so that a concrete state can be shown to meet it. -/

namespace Sys2Proof.Machine

/-- Every element of buffer `x` below `n` holds a code. -/
def State.holdsBelow (s : State) (x : Buf) (n : Nat) : Bool := (List.range n).all fun i => ((s.buf x).read i).isSome

/-- Every entry of a buffer lies inside it and is a code. -/
def Memory.fits (m : Memory) (c : Config) : Bool := m.all fun p => decide (p.1 < c.bufLen) && codeFits c.codeWidth p.2

/-- The invariant as a check. -/
def State.invCheck (s : State) : Bool :=
  s.cfg.valid && (s.bufA.wf && s.bufB.wf) && (s.bufA.fits s.cfg && s.bufB.fits s.cfg) &&
  decide (s.fill < s.cfg.bufLen) && s.holdsBelow s.active s.fill &&
  (!s.pendA || s.holdsBelow .A s.cfg.bufLen) && (!s.pendB || s.holdsBelow .B s.cfg.bufLen) &&
  (decide (s.phase ≠ .capture) || (s.holdsBelow s.cur s.cfg.bufLen && decide (s.j < s.cfg.bufLen) &&
    (s.cap.take s.j).all Option.isSome)) &&
  decide (s.j ≤ s.cfg.bufLen) && (decide (s.phase ≠ .emit) || decide (s.e < s.cfg.bufLen)) &&
  decide (s.e ≤ s.cfg.bufLen) && decide (s.cap.length = s.cfg.bufLen) &&
  (s.cap.all fun o => o.all (codeFits s.cfg.codeWidth)) &&
  (decide (s.phase ≠ .compute ∧ s.phase ≠ .emit) || s.cap.all Option.isSome) &&
  (decide (s.outU.length = s.cfg.bufLen) && decide (s.outF.length = s.cfg.bufLen)) &&
  (decide (s.phase ≠ .emit) || (s.outU.all Option.isSome && s.outF.all Option.isSome)) &&
  decide (s.hist.length = s.cfg.taps - 1)

theorem State.holdsBelow_iff (s : State) (x : Buf) (n : Nat) :
    s.holdsBelow x n = true ↔ ∀ i, i < n → (s.buf x).read i ≠ none := by
  simp [State.holdsBelow, Option.isSome_iff_ne_none]

theorem Memory.fits_read {m : Memory} {c : Config} (h : m.fits c = true) {i : Nat} {d : Code} (hr : m.read i = some d) :
    i < c.bufLen ∧ codeFits c.codeWidth d = true := by
  have := List.all_eq_true.1 h _ (Memory.mem_of_read hr)
  simpa using this

theorem getElem?_ne_none_of_all {α : Type} {l : List (Option α)} (h : l.all Option.isSome = true) (i : Nat) :
    l[i]? ≠ some none := by
  intro hi
  have := List.all_eq_true.1 h none (List.mem_of_getElem? hi)
  simp at this

theorem State.inv_of_check {s : State} (h : s.invCheck = true) : s.Inv := by
  simp only [State.invCheck, Bool.and_eq_true, Bool.or_eq_true, Bool.not_eq_true', decide_eq_true_eq,
    State.holdsBelow_iff, ne_eq] at h
  obtain ⟨⟨⟨⟨⟨⟨⟨⟨⟨⟨⟨⟨⟨⟨⟨⟨h1, h2, h3⟩, h4, h5⟩, h6⟩, h7⟩, h8⟩, h9⟩, h10⟩, h11⟩, h12⟩, h13⟩, h14⟩, h15⟩, h16⟩, h17, h18⟩,
    h19⟩, h20⟩ := h
  have not_or {p q : Prop} (h : ¬ p ∨ q) (hp : p) : q := h.resolve_left (not_not.2 hp)
  refine ⟨h1, ?_, ?_, h6, h7, ?_, ?_, ?_, h11, not_or h12, h13, h14, ?_, ?_, ?_, ⟨h17, h18⟩, ?_, h20⟩
  · intro x; cases x
    · exact h2
    · exact h3
  · intro x i c; cases x
    · exact Memory.fits_read h4
    · exact Memory.fits_read h5
  · intro x i hp hi; cases x
    · exact h8.resolve_left (by simp [show s.pendA = true from hp]) i hi
    · exact h9.resolve_left (by simp [show s.pendB = true from hp]) i hi
  · intro hp; exact (not_or h10 hp).1.1
  · intro hp; exact (not_or h10 hp).1.2
  · intro i c hi; have := List.all_eq_true.1 h15 _ (List.mem_of_getElem? hi); simpa using this
  · intro hp i hi
    have := getElem?_ne_none_of_all (not_or h10 hp).2 i
    rwa [List.getElem?_take_of_lt hi] at this
  · intro hp i
    refine getElem?_ne_none_of_all (h16.resolve_left ?_) i
    rintro ⟨h1, h2⟩
    exact hp.elim h1 h2
  · intro hp i
    have := not_or h19 hp
    exact ⟨getElem?_ne_none_of_all this.1 i, getElem?_ne_none_of_all this.2 i⟩

end Sys2Proof.Machine
end

