-- ==== Sys2Proof/Laws/Numeric.lean ====
section
/-! SUPPORT. Laws of the sequence notation and of the block filter (R9, R143, R148). -/

namespace Sys2Proof.Machine

@[simp] theorem lastK_length (k : Nat) (xs : List Val) : (lastK k xs).length = k := by
  simp [lastK]; omega

/-- Where the sequence is long enough, `last_k` only drops. -/
theorem lastK_eq_drop {k : Nat} {xs : List Val} (h : k ≤ xs.length) : lastK k xs = xs.drop (xs.length - k) := by
  simp [lastK, Nat.sub_eq_zero_of_le h]

@[simp] theorem firBlock_length (c : Config) (h v : List Val) : (firBlock c h v).1.length = v.length := by
  simp [firBlock]

@[simp] theorem firBlock_hist_length (c : Config) (h v : List Val) : (firBlock c h v).2.length = c.taps - 1 := by
  simp [firBlock]

@[simp] theorem firWindow_length (t : Nat) (ext : List Val) (i : Nat) : (firWindow t ext i).length = t := by
  simp [firWindow]

/-- Output `i` of the block filter (R143). -/
theorem firBlock_getElem (c : Config) (h v : List Val) (i : Nat) (hi : i < v.length) :
    (firBlock c h v).1[i]? = some (dotFn c c.coeff (firWindow c.taps (h ++ v) i)) := by
  simp [firBlock, hi]

/-- The delay line is the last `T - 1` of the old one and the block (R143). -/
theorem firBlock_snd (c : Config) (h v : List Val) (hl : h.length = c.taps - 1) :
    (firBlock c h v).2 = (h ++ v).drop v.length := by
  have : (h ++ v).length - (c.taps - 1) = v.length := by simp [hl]
  simp only [firBlock]
  rw [lastK_eq_drop (by simp [hl]), this]

theorem dotFn_exact (c : Config) (h : c.numerics = .exact) (a b : List Val) : dotFn c a b = exactDot a b := by
  simp [dotFn, h]

theorem scaleFn_exact (c : Config) (h : c.numerics = .exact) (code : Code) :
    scaleFn c code = ((code.toNat : Val) * c.vref) / (c.maxCode : Val) := by
  simp [scaleFn, h, exactScale]

/-- Where the sequence is long enough, every entry of the window is one of it. -/
theorem firWindow_of_length {taps : Nat} {ext : List Val} {i : Nat} (h : taps - 1 + i < ext.length) :
    firWindow taps ext i = (List.range taps).map fun k => ext.getD (taps - 1 + i - k) 0 := by
  unfold firWindow
  congr 1
  funext k
  have hk : taps - 1 + i - k < ext.length := by omega
  simp only [List.getD_eq_getElem?_getD, List.getElem?_eq_getElem hk, Option.getD_some]

/-- The exact dot product over a window of `T` entries, as the sum of R148. -/
theorem exactDot_firWindow (coeff : List Val) (ext : List Val) (taps i : Nat) (hc : coeff.length = taps)
    (hi : taps - 1 + i < ext.length) :
    exactDot coeff (firWindow taps ext i) =
      ∑ k ∈ Finset.range taps, coeff.getD k 0 * ext.getD (taps - 1 + i - k) 0 := by
  rw [firWindow_of_length hi]
  subst hc
  have : ∀ (l : List Val) (f : Nat → Val),
      (List.zipWith (· * ·) l ((List.range l.length).map f)).sum = ∑ k ∈ Finset.range l.length, l.getD k 0 * f k := by
    intro l
    induction l with
    | nil => intro f; simp
    | cons a l ih =>
      intro f
      rw [List.length_cons, List.range_succ_eq_map, List.map_cons, List.map_map, List.zipWith_cons_cons, List.sum_cons,
        Finset.sum_range_succ', ih (f ∘ Nat.succ)]
      simp [add_comm]
  simpa [exactDot] using this coeff fun k => ext.getD (coeff.length - 1 + i - k) 0

end Sys2Proof.Machine
end

