-- ==== Sys2Proof/Laws/PerInstr.lean ====
section
/-! SUPPORT. The family `RoundTrip`: what the decoder reads from the encoding of a well-formed instruction. One lemma per
constructor. -/

namespace Sys2Proof.Laws

open Sys2Proof.Machine

/-- In every configuration, the decoder reads the instruction back from its encoding, where it has one. -/
def RoundTrip.Statement (i : Instr) : Prop :=
  ∀ (c : Config) (t : Transaction), wellFormed c i = true → encode i = some t → decode c.codeWidth t = .instr i

/-- The bus decoder sees a bundle only through its three fields. -/
theorem decodeBus_bundle (we : Bool) (a : BitVec 8) (w : Word) :
    decodeBus (busBundle we a w) =
      if busKey we a = 0x000#9 then .rdStatus w else if busKey we a = 0x004#9 then .rdSeq w
      else if busKey we a = 0x008#9 then .rdCtrl w else if busKey we a = 0x00C#9 then .rdCfg w
      else if busKey we a = 0x100#9 then .wrStatus w else if busKey we a = 0x104#9 then .wrSeq w
      else if busKey we a = 0x108#9 then .wrCtrl w else if busKey we a = 0x10C#9 then .wrCfg w
      else .busErr we a w := by
  simp only [decodeBus, busWe_bundle, busAddr_bundle, busWdata_bundle]

/-- A mapped bus row round-trips once its key selects it. -/
theorem roundTrip_bus {i : Instr} {we : Bool} {a : BitVec 8} {w : Word} (he : encode i = encodeBus we a w)
    (hd : decodeBus (busBundle we a w) = i) : RoundTrip.Statement i := by
  intro c t _ h
  rw [he, encodeBus, Option.some.injEq] at h
  subst h
  simp [decode, hd]

theorem RoundTrip.reset : RoundTrip.Statement .reset := by
  intro c t _ h; simp only [encode, Option.some.injEq] at h; subst h; rfl

theorem RoundTrip.write (code : Code) : RoundTrip.Statement (.write code) := by
  intro c t hw h
  simp only [encode, Option.some.injEq] at h; subst h
  simp only [wellFormed] at hw
  simp [decode, decodeSample, sampleValid_bundle, sampleCode_bundle, hw]

theorem RoundTrip.rdStatus (w : Word) : RoundTrip.Statement (.rdStatus w) :=
  roundTrip_bus rfl (by rw [decodeBus_bundle]; rfl)

theorem RoundTrip.rdSeq (w : Word) : RoundTrip.Statement (.rdSeq w) :=
  roundTrip_bus rfl (by rw [decodeBus_bundle]; rfl)

theorem RoundTrip.rdCtrl (w : Word) : RoundTrip.Statement (.rdCtrl w) :=
  roundTrip_bus rfl (by rw [decodeBus_bundle]; rfl)

theorem RoundTrip.rdCfg (w : Word) : RoundTrip.Statement (.rdCfg w) :=
  roundTrip_bus rfl (by rw [decodeBus_bundle]; rfl)

theorem RoundTrip.wrStatus (w : Word) : RoundTrip.Statement (.wrStatus w) :=
  roundTrip_bus rfl (by rw [decodeBus_bundle]; rfl)

theorem RoundTrip.wrSeq (w : Word) : RoundTrip.Statement (.wrSeq w) :=
  roundTrip_bus rfl (by rw [decodeBus_bundle]; rfl)

theorem RoundTrip.wrCtrl (w : Word) : RoundTrip.Statement (.wrCtrl w) :=
  roundTrip_bus rfl (by rw [decodeBus_bundle]; rfl)

theorem RoundTrip.wrCfg (w : Word) : RoundTrip.Statement (.wrCfg w) :=
  roundTrip_bus rfl (by rw [decodeBus_bundle]; rfl)

theorem RoundTrip.busErr (we : Bool) (a : BitVec 8) (w : Word) : RoundTrip.Statement (.busErr we a w) := by
  intro c t hw h
  simp only [encode, encodeBus, Option.some.injEq] at h; subst h
  simp only [wellFormed, mappedKeys, List.contains_eq_mem, List.mem_cons, List.not_mem_nil, or_false, Bool.not_eq_true',
    decide_eq_false_iff_not, not_or] at hw
  simp only [decode, decodeBus_bundle]
  simp only [hw, if_false]

theorem RoundTrip.start : RoundTrip.Statement .start := by
  intro c t _ h; simp only [encode, Option.some.injEq] at h; subst h; rfl

theorem RoundTrip.checkA : RoundTrip.Statement .checkA := by
  intro c t _ h; simp only [encode, Option.some.injEq] at h; subst h; rfl

theorem RoundTrip.checkB : RoundTrip.Statement .checkB := by
  intro c t _ h; simp only [encode, Option.some.injEq] at h; subst h; rfl

theorem RoundTrip.capture : RoundTrip.Statement .capture := by
  intro c t _ h; simp only [encode, Option.some.injEq] at h; subst h; rfl

theorem RoundTrip.compute : RoundTrip.Statement .compute := by
  intro c t _ h; simp only [encode, Option.some.injEq] at h; subst h; rfl

theorem RoundTrip.emit : RoundTrip.Statement .emit := by
  intro c t _ h; simp only [encode, Option.some.injEq] at h; subst h; rfl

theorem RoundTrip.scale (code : Code) : RoundTrip.Statement (.scale code) := by
  intro c t _ h; simp [encode] at h

theorem RoundTrip.fir (hist block : List Val) : RoundTrip.Statement (.fir hist block) := by
  intro c t _ h; simp [encode] at h

end Sys2Proof.Laws
end

