-- ==== Sys2Proof/Laws/Step.lean ====
section
/-! SUPPORT. What one step can do: run a decoded instruction, refuse a bundle, or nothing. -/

namespace Sys2Proof.Machine

@[simp] theorem State.buf_popSched (s : State) (x : Buf) : s.popSched.buf x = s.buf x := by cases x <;> rfl

@[simp] theorem State.pend_popSched (s : State) (x : Buf) : s.popSched.pend x = s.pend x := by cases x <;> rfl

/-- A scheduled transaction that decodes to an instruction is run as that instruction. -/
theorem step_of_decode {s : State} {t : Transaction} {rest : List Transaction} {i : Instr}
    (hs : s.sched = t :: rest) (hd : decode s.cfg.codeWidth t = .instr i) : step s = exec i s.popSched := by
  unfold step; rw [hs]; simp only; rw [hd]

/-- With nothing scheduled the sequencer runs by itself. -/
theorem step_of_nil {s : State} (hs : s.sched = []) :
    step s = match s.sequencerStep with | some i => exec i s | none => noStep s := by
  cases h : s.sequencerStep <;> simp [step, hs, h]

/-- Everything a step that answers a next state can be. -/
theorem step_cases {s t : State} (h : step s = .next t) :
    (∃ i u, (u = s ∨ u = s.popSched) ∧ exec i u = .next t) ∨
    (s.faults = [] ∧ (t = s ∨ t = s.popSched)) ∨
    (s.faults = [] ∧ ∃ b, t = s.popSched.refuse (.sampleReservedBits b)) := by
  unfold step at h
  split at h
  · split at h
    · exact .inl ⟨_, s, .inl rfl, h⟩
    · exact .inr (.inl ⟨(noStep_next.1 h).1, .inl (noStep_next.1 h).2⟩)
  · split at h
    · exact .inl ⟨_, s.popSched, .inr rfl, h⟩
    · exact .inr (.inl ⟨(noStep_next.1 h).1, .inr (noStep_next.1 h).2⟩)
    · exact .inr (.inr ⟨(refuseSample_next.1 h).1, _, (refuseSample_next.1 h).2⟩)
    · exact absurd h rejectEvent_not_next

end Sys2Proof.Machine
end

