-- ==== Sys2Proof/Laws/Runs.lean ====
section
/-! SUPPORT. Runs put together, finite and infinite, what holds right after a reset, and what one more entry adds to what a
history shows. -/

namespace Sys2Proof.Machine

theorem RunsTo.append {P : State → Instr → Prop} :
    ∀ {a b : List Instr} {s t u : State}, RunsTo P a s t → RunsTo P b t u → RunsTo P (a ++ b) s u
  | [], _, _, _, _, h1, h2 => by cases h1; exact h2
  | _ :: _, _, _, _, _, ⟨h1, m, h2, h3⟩, h4 => ⟨h1, m, h2, RunsTo.append h3 h4⟩

/-- One step is a run. -/
theorem RunsTo.single {P : State → Instr → Prop} {i : Instr} {s t : State} (hp : P s i) (h : exec i s = .next t) :
    RunsTo P [i] s t := ⟨hp, t, h, rfl⟩

/-- A state right after a reset, field by field (R21). -/
theorem FreshlyReset.fields {s : State} (h : FreshlyReset s) :
    (∀ x, s.buf x = []) ∧ s.active = .A ∧ s.fill = 0 ∧ (∀ x, s.pend x = false) ∧ s.seq = 0#32 ∧ s.ovr = false ∧
    s.range = false ∧ s.hist = List.replicate (s.cfg.taps - 1) 0 ∧ s.phase = .idle ∧ s.cur = .A ∧ s.j = 0 ∧ s.e = 0 ∧
    s.cap = List.replicate s.cfg.bufLen none ∧ s.outU = List.replicate s.cfg.bufLen none ∧
    s.outF = List.replicate s.cfg.bufLen none ∧ s.faults = [] := by
  rcases h with ⟨s0, h⟩ | h
  · obtain ⟨hf, rfl⟩ := exec_reset_next.1 h
    refine ⟨fun x => ?_, rfl, rfl, fun x => ?_, rfl, rfl, rfl, rfl, rfl, rfl, rfl, rfl, rfl, rfl, rfl, hf⟩ <;> cases x <;> rfl
  · rw [h]
    refine ⟨fun x => ?_, rfl, rfl, fun x => ?_, rfl, rfl, rfl, rfl, rfl, rfl, rfl, rfl, rfl, rfl, rfl, rfl⟩ <;> cases x <;> rfl

/-- A new instance is freshly reset. -/
theorem freshlyReset_resetOf (c : Config) : FreshlyReset (State.resetOf c) := .inr rfl

/-- What holds at the start of an infinite run and is kept by its steps holds in every state of it. -/
theorem InfiniteRun.invariant {P : State → Instr → Prop} {run : Nat → State} {steps : Nat → Instr}
    (h : InfiniteRun P run steps) {Q : State → Prop} (h0 : Q (run 0))
    (hs : ∀ (s t : State) (i : Instr), P s i → exec i s = .next t → Q s → Q t) : ∀ n, Q (run n)
  | 0 => h0
  | n + 1 => hs _ _ _ (h n).1 (h n).2 (h.invariant h0 hs n)

theorem readyEvents_fill (c : Code) (x : Buf) (h : List Event) :
    readyEvents (.write c (readyOf x) :: h) = x :: readyEvents h := by cases x <;> rfl

/-- An entry that is no `WRITE` changes neither the ready events nor the count. -/
theorem events_of_not_write {e : Event} (he : ∀ c r, e ≠ .write c r) (h : List Event) :
    readyEvents (e :: h) = readyEvents h ∧ writeCount (e :: h) = writeCount h := by
  cases e <;> first | exact ⟨rfl, rfl⟩ | exact absurd rfl (he _ _)

/-- In an alternating history, which buffer is due tells the parity of the count. -/
theorem Alternates.parity : ∀ {xs : List Buf} {x : Buf}, Alternates xs x → (x = .A ↔ xs.length % 2 = 0)
  | [], x, h => by simp only [Alternates] at h; simp [h]
  | y :: ys, x, ⟨h1, h2⟩ => by
    have := h2.parity
    subst h1
    simp only [List.length_cons]
    cases y <;> simp [Buf.other] at this ⊢ <;> omega

end Sys2Proof.Machine
end

