-- ==== Sys2Proof/Tests/Slice0.lean ====
section
/-! SUPPORT. Tests of single steps, words and operations, whose expected results are the vectors of the spec's
`95_test_vectors.md`, and a witness for the hypotheses of each obligation that has any. -/

namespace Sys2Proof.Tests

open Sys2Proof Sys2Proof.Machine

/-! ### Helpers -/

/-- A configuration of the vectors: buffer length, coefficients, code width, `MAX_CODE`, `VREF`. -/
def cfg (len : Nat) (coeff : List Val) (n maxCode : Nat) (vref : Val) : Config where
  bufLen := len
  taps := coeff.length
  coeff := coeff
  codeWidth := n
  maxCode := maxCode
  vref := vref
  triggerFreq := ⟨1, by norm_num⟩
  numerics := .exact
  rangePolicy := .fault
  valFmt := 0
  valWidth := 8
  baseAddr := 0

/-- The configuration of program P3. -/
def p3 : Config := cfg 2 [1 / 2, 1 / 2] 3 7 7

/-- The configuration of program P1. -/
def p1 : Config := cfg 16 [1 / 3, 1 / 3, 1 / 3] 4 15 3

/-- The configuration of program P5 and of vectors PR4 and PR5. -/
def p5 (policy : RangePolicy) : Config := { cfg 1 [1] 4 10 10 with rangePolicy := policy }

/-- Right after reset, in the configuration of P3. -/
def r3 : State := State.resetOf p3

/-- Codes as written. -/
def codes (xs : List Nat) : List Code := xs.map (BitVec.ofNat 16)

/-- A buffer whose first elements hold these codes. -/
def filled (xs : List Nat) : Memory := (List.range xs.length).zip (codes xs)

/-- What `f` sees in the next state, if there is one. -/
def look {α : Type} (f : State → α) : Result → Option α
  | .next t => some (f t)
  | .fault _ => none
  | .refused _ => none

/-- Runs instructions in order, checking `p` before each. -/
def runAll (p : State → Instr → Bool) : List Instr → State → Option State
  | [], s => some s
  | i :: is, s => if p s i then (look id (exec i s)).bind (runAll p is) else none

theorem run_of_check {P : State → Instr → Prop} {p : State → Instr → Bool} (hp : ∀ s i, p s i = true → P s i) :
    ∀ {is : List Instr} {s t : State}, runAll p is s = some t → RunsTo P is s t
  | [], s, t, h => by simpa [runAll, RunsTo] using h
  | i :: is, s, t, h => by
    simp only [runAll] at h
    split at h
    · rename_i h1
      cases h2 : exec i s with
      | next m =>
        rw [h2] at h
        exact ⟨hp s i h1, m, h2, run_of_check hp h⟩
      | fault _ => rw [h2] at h; simp [look] at h
      | refused _ => rw [h2] at h; simp [look] at h
    · simp at h

/-- A run that passes the check gives a run, ending where `q` holds. -/
theorem run_exists {P : State → Instr → Prop} {p : State → Instr → Bool} (hp : ∀ s i, p s i = true → P s i)
    {is : List Instr} {s : State} (q : State → Bool) (h : ((runAll p is s).any q) = true) :
    ∃ t, RunsTo P is s t ∧ q t = true := by
  cases hr : runAll p is s with
  | none => rw [hr] at h; simp at h
  | some t => rw [hr] at h; exact ⟨t, run_of_check hp hr, by simpa using h⟩

def noReset (_ : State) (i : Instr) : Bool := decide (i ≠ .reset)

theorem noReset_spec (s : State) (i : Instr) (h : noReset s i = true) : NotReset s i := by
  simpa [noReset, NotReset] using h

/-- The `WRITE`s of a list of codes. -/
def writes (xs : List Nat) : List Instr := (codes xs).map .write

/-- The sequencer's steps that process one buffer of `L` elements. -/
def process (len : Nat) : List Instr := List.replicate len .capture ++ [.compute] ++ List.replicate len .emit

/-! ### The well-formedness smoke tests -/

theorem test_wf_write : wellFormed p3 (.write 7#16) = true ∧ wellFormed p3 (.write 8#16) = false := by decide

theorem test_wf_busErr :
    wellFormed p3 (.busErr false 0x02#8 0#32) = true ∧ wellFormed p3 (.busErr false 0x0C#8 0#32) = false ∧
    wellFormed p3 (.busErr true 0x08#8 0#32) = false := by decide

theorem test_wf_scale : wellFormed p3 (.scale 7#16) = true ∧ wellFormed p3 (.scale 0x8000#16) = false := by decide

theorem test_wf_fir_history : wellFormed p3 (.fir [] [0, 0]) = false := by decide +kernel

theorem test_wf_fir_block : wellFormed p3 (.fir [0] [0]) = false ∧ wellFormed p3 (.fir [0] [0, 0]) = true := by
  decide +kernel

/-- R5, at the edges of each range. -/
theorem test_config_conditions :
    p3.failing = [] ∧ (cfg 0 [1] 1 1 1).failing = [.bufLen] ∧ (cfg 65535 [1] 16 65535 1).failing = [] ∧
    (cfg 65536 [1] 1 1 1).failing = [.bufLen] ∧ (cfg 1 [] 1 1 1).failing = [.taps] ∧
    { p3 with taps := 3 }.failing = [.coeffLength] ∧ (cfg 1 [1] 0 1 1).failing = [.codeWidth, .maxCode] ∧
    (cfg 1 [1] 17 1 1).failing = [.codeWidth] ∧ (cfg 1 [1] 4 16 1).failing = [.maxCode] ∧
    (cfg 1 [1] 4 0 1).failing = [.maxCode] ∧ (cfg 1 [1] 4 15 0).failing = [.vref] := by decide +kernel

/-! ### Decoding: words written out from R71, R73, R76, R77 -/

theorem test_decode_reset : decode 4 (.rst 1#1) = .instr .reset ∧ decode 4 (.rst 0#1) = .noTransaction := by decide

/-- `0x1000F` is `VALID = 1`, `CODE = 15`; `0x10010` sets `CODE[4]`, reserved for N = 4 (EN9). -/
theorem test_decode_write :
    decode 4 (.sample 0x1000F#17) = .instr (.write 15#16) ∧ decode 4 (.sample 0x0FFFF#17) = .noTransaction ∧
    decode 4 (.sample 0x10010#17) = .sampleReservedBits 0x10010#17 ∧
    decode 16 (.sample 0x1FFFF#17) = .instr (.write 0xFFFF#16) := by decide

/-- BU1 to BU4: the four reads. -/
theorem test_decode_reads :
    decode 12 (.bus 0x00000000000#41) = .instr (.rdStatus 0#32) ∧ decode 12 (.bus 0x00400000000#41) = .instr (.rdSeq 0#32) ∧
    decode 12 (.bus 0x00800000000#41) = .instr (.rdCtrl 0#32) ∧
    decode 12 (.bus 0x00C00000000#41) = .instr (.rdCfg 0#32) := by decide

/-- BU8 to BU12 and P5: the four writes. -/
theorem test_decode_writes :
    decode 12 (.bus 0x10000000000#41) = .instr (.wrStatus 0#32) ∧ decode 12 (.bus 0x10400000005#41) = .instr (.wrSeq 5#32) ∧
    decode 12 (.bus 0x108FFFFFFFC#41) = .instr (.wrCtrl 0xFFFFFFFC#32) ∧
    decode 12 (.bus 0x10C00000000#41) = .instr (.wrCfg 0#32) := by decide

/-- BU5 to BU7 and the last key of all. -/
theorem test_decode_busErr :
    decode 12 (.bus 0x00200000000#41) = .instr (.busErr false 0x02#8 0#32) ∧
    decode 12 (.bus 0x01000000000#41) = .instr (.busErr false 0x10#8 0#32) ∧
    decode 12 (.bus 0x10E00000001#41) = .instr (.busErr true 0x0E#8 1#32) ∧
    decode 12 (.bus 0x1FF00000000#41) = .instr (.busErr true 0xFF#8 0#32) := by decide

theorem test_decode_events :
    decode 4 (.event 0x4#4) = .instr .start ∧ decode 4 (.event 0x5#4) = .instr .checkA ∧
    decode 4 (.event 0x6#4) = .instr .checkB ∧ decode 4 (.event 0x7#4) = .instr .capture ∧
    decode 4 (.event 0x8#4) = .instr .compute ∧ decode 4 (.event 0x9#4) = .instr .emit ∧
    decode 4 (.event 0xA#4) = .noSuchEvent 0xA#4 ∧ decode 4 (.event 0x3#4) = .noSuchEvent 0x3#4 := by decide

/-- A table word placed first is run by the very next step, from `State.reset`. -/
theorem test_fetch_write :
    look (fun t => (t.bufA, t.fill)) (step (State.reset.withFetchWord 24 0x10005)) = some (filled [5], 1) := by decide

theorem test_fetch_checkA :
    look (fun t => t.phase) (step (State.reset.withFetchWord 8 0x5)) = some .checkB := by decide

/-! ### The Engine -/

/-- EN2: the second of two stores. -/
theorem test_write_stores :
    look (fun t => (t.bufA, t.fill, t.active, t.seq, t.statusWord))
      (exec (.write 8#16) { State.resetOf (cfg 4 [1] 4 15 1) with bufA := filled [7], fill := 1 }) =
    some (filled [7, 8], 2, .A, 0#32, 0x00020000#32) := by decide

/-- EN8: a fill that overwrites an element not yet captured. -/
theorem test_write_fills_and_overruns :
    look (fun t => (t.bufA, t.ovr, t.pendA, t.active, t.history))
      (exec (.write 11#16) { State.resetOf (cfg 2 [1] 4 15 1) with
        bufA := filled [9, 3], fill := 1, phase := .capture, j := 1 }) =
    some (filled [9, 11], true, true, .B, [.write 11#16 .readyA]) := by decide

/-- EN7: a store below `J` sets no `OVR`. -/
theorem test_write_below_j :
    look (fun t => (t.bufA, t.ovr)) (exec (.write 9#16) { State.resetOf (cfg 2 [1] 4 15 1) with
        bufA := filled [1, 3], phase := .capture, j := 1 }) = some (filled [9, 3], false) := by decide

/-- EN6: `SEQ` wraps, with `L` = 1. -/
theorem test_write_seq_wraps :
    look (fun t => (t.seq, t.ovr, t.history))
      (exec (.write 0#16) { State.resetOf (cfg 1 [1] 2 3 3) with seq := 0xFFFFFFFF#32, active := .B }) =
    some (0#32, false, [.write 0#16 .readyB]) := by decide

/-! ### The Dispatcher -/

/-- DI1. -/
theorem test_start_needs_irq : exec .start r3 = .refused (.notEnabled 0x4#4) := rfl

/-- R121's example. -/
theorem test_start : look (fun t => t.phase) (exec .start { r3 with pendA := true }) = some .checkA := by decide

/-- DI7. -/
theorem test_checkA_acknowledges :
    look (fun t => (t.pendA, t.pendB, t.cur, t.j, t.phase))
      (exec .checkA { r3 with phase := .checkA, pendA := true, pendB := true, cur := .B, j := 2 }) =
    some (false, true, .A, 0, .capture) := by decide

/-- DI3: the check that finds nothing. -/
theorem test_checkA_goes_on :
    look (fun t => (t.phase, t.cur, t.j)) (exec .checkA { r3 with phase := .checkA, pendB := true, cur := .B, j := 2 }) =
    some (.checkB, .B, 2) := by decide

/-- P4, line 15. -/
theorem test_checkB_acknowledges :
    look (fun t => (t.pendA, t.pendB, t.cur, t.j, t.phase))
      (exec .checkB { r3 with phase := .checkB, pendA := true, pendB := true, j := 2 }) =
    some (true, false, .B, 0, .capture) := by decide

/-- R123's example. -/
theorem test_checkB_ends : look (fun t => t.phase) (exec .checkB { r3 with phase := .checkB }) = some .idle := by decide

/-! ### The Buffer Processor -/

/-- PR1. -/
theorem test_capture :
    look (fun t => (t.cap, t.j, t.phase)) (exec .capture { State.resetOf (cfg 4 [1] 4 15 1) with
      bufA := filled [1, 1, 9, 1], phase := .capture, j := 2 }) =
    some ([none, none, some 9#16, none], 3, .capture) := by decide

/-- PR2. -/
theorem test_capture_last :
    look (fun t => (t.j, t.phase)) (exec .capture { State.resetOf (cfg 4 [1] 4 15 1) with
      bufB := filled [1, 1, 9, 1], cur := .B, phase := .capture, j := 3 }) = some (4, .compute) := by decide

/-- The example of R142. -/
theorem test_compute :
    look (fun t => (t.outU, t.outF, t.hist, t.e, t.phase)) (exec .compute
      { State.resetOf (cfg 2 [1 / 3, 1 / 3, 1 / 3] 4 15 3) with phase := .compute, cap := (codes [15, 0]).map some }) =
    some ([some 3, some 0], [some 1, some 1], [3, 0], 0, .emit) := by decide +kernel

/-- PR4. -/
theorem test_compute_range :
    look (fun t => (t.range, t.outU, t.outF, t.phase)) (exec .compute
      { State.resetOf (p5 .compute) with phase := .compute, cap := [some 12#16] }) =
    some (true, [some 12], [some 12], .emit) := by decide +kernel

/-- PR6. -/
theorem test_emit :
    look (fun t => (t.history, t.e, t.phase)) (exec .emit { r3 with
      phase := .emit, e := 1, outU := [some 1, some 3], outF := [some (1 / 2), some 2] }) =
    some ([.emit 3 2], 2, .checkB) := by decide +kernel

/-- PR7. -/
theorem test_emit_ends :
    look (fun t => t.phase) (exec .emit { State.resetOf p1 with phase := .emit, e := 15, cur := .B }) = some .idle := by
  decide

/-- FI3 (old history kept, `L` below `T` − 1) and FI5 (`COEFF[0]` weights the newest input). -/
theorem test_fir :
    look (fun t => t.fnResult) (exec (.fir [0, 1, 2] [3, 4]) (State.resetOf (cfg 2 [1, 1, 1, 1] 4 15 3))) =
      some (.filtered [6, 10] [2, 3, 4]) ∧
    look (fun t => t.fnResult) (exec (.fir [4, 8] [0]) (State.resetOf (cfg 1 [1 / 2, 1 / 4, 1 / 4] 4 15 3))) =
      some (.filtered [3] [8, 0]) := by decide +kernel

/-- FI7 and FI8: the second block of the reference sizes reaches the constant at its output 12. -/
theorem test_fir_reference :
    firBlock Config.reference (List.replicate 12 0 ++ List.replicate 16 2) (List.replicate 16 2) =
      ((List.range 12).map (fun i => 2 * ((i : Val) + 17) / 29) ++ [2, 2, 2, 2], List.replicate 28 2) := by
  decide +kernel

/-- SC3, SC5 and SC6. -/
theorem test_scale :
    look (fun t => t.fnResult) (exec (.scale 7#16) (State.resetOf p1)) = some (.scaled (7 / 5)) ∧
    look (fun t => t.fnResult) (exec (.scale 2048#16) (State.resetOf (cfg 1 [1] 12 4095 (33 / 10)))) =
      some (.scaled (11264 / 6825)) := by decide +kernel

/-- A pair of functions of a fixed grid of 1/4, by hand: `SCALE_FN` rounds down, `DOT_FN` rounds every product down and
saturates the sum at 2. -/
def quarterGrid : Numerics :=
  let down (x : NumExpr) : NumExpr := .div (.floor (.mul (.const 4) x)) (.const 4)
  .given (down (.div (.mul .code .vref) .maxCode))
    (.foldTaps (.const 0)
      (.ifLe (.const 2) (.add .acc (down (.mul .tapCoeff .tapWindow))) (.const 2)
        (.add .acc (down (.mul .tapCoeff .tapWindow)))))

/-- 7/5 is rounded to 5/4; (1/3)·1 three times is three times 1/4; (1/3)·4 three times would be 15/4. -/
theorem test_given_numerics :
    scaleFn { p1 with numerics := quarterGrid } 7#16 = 5 / 4 ∧
    dotFn { p1 with numerics := quarterGrid } p1.coeff [1, 1, 1] = 3 / 4 ∧
    dotFn { p1 with numerics := quarterGrid } p1.coeff [4, 4, 4] = 2 := by decide +kernel

/-- SC7: above `MAX_CODE` the formula still answers. -/
theorem test_scale_above_max :
    look (fun t => t.fnResult) (exec (.scale 12#16) (State.resetOf (p5 .compute))) = some (.scaled 12) := by
  decide +kernel

/-! ### The register bus -/

/-- P3, line 6, and DI4: two values of `STATUS`. -/
theorem test_rdStatus :
    look (fun t => t.history) (exec (.rdStatus 0#32) { r3 with pendA := true, pendB := true }) =
      some [.busRd 0#41 ⟨false, 0x00000083#32⟩] ∧
    look (fun t => t.history.map Event.kind) (exec (.rdStatus 0#32) r3) = some [0x2#4] ∧
    { r3 with pendB := true, phase := .capture }.statusWord = 0x000000B2#32 := by decide

/-- P4, line 21, and P5, line 6: the flag bits. -/
theorem test_status_flags :
    { r3 with pendA := true, active := .B, cur := .B, ovr := true }.statusWord = 0x0000018D#32 ∧
    { r3 with active := .B, range := true }.statusWord = 0x00000204#32 := by decide

/-- R182's example. -/
theorem test_rdSeq :
    look (fun t => t.history) (exec (.rdSeq 0#32) { r3 with seq := 3#32 }) =
      some [.busRd 0x00400000000#41 ⟨false, 3#32⟩] := by decide

/-- BU3. -/
theorem test_rdCtrl :
    look (fun t => t.history) (exec (.rdCtrl 0#32) { r3 with ovr := true }) =
      some [.busRd 0x00800000000#41 ⟨false, 0#32⟩] := by decide

/-- BU4 in the reference instance, and the other `CFG` encodings of the vectors. -/
theorem test_rdCfg :
    look (fun t => t.history) (exec (.rdCfg 0#32) State.reset) =
      some [.busRd 0x00C00000000#41 ⟨false, 0xB01D0010#32⟩] ∧
    cfgWord p1 = 0x30030010#32 ∧ cfgWord (p5 .fault) = 0x30010001#32 ∧ cfgWord (cfg 1 [1] 1 1 1) = 0x00010001#32 ∧
    cfgWord { p1 with bufLen := 65535, taps := 4095, codeWidth := 16 } = 0xFFFFFFFF#32 := by decide

/-- BU12: the flags are not acknowledged by the bus. -/
theorem test_wrStatus :
    look (fun t => (t.pendA, t.pendB, t.history)) (exec (.wrStatus 0#32) { r3 with pendA := true, pendB := true }) =
      some (true, true, [.busWr 0x10000000000#41 ⟨false, 0#32⟩]) := by decide

/-- BU8. -/
theorem test_wrSeq :
    look (fun t => (t.seq, t.history)) (exec (.wrSeq 5#32) { r3 with seq := 3#32 }) =
      some (3#32, [.busWr 0x10400000005#41 ⟨false, 0#32⟩]) := by decide

/-- BU9. -/
theorem test_wrCtrl_ovr :
    look (fun t => (t.ovr, t.range)) (exec (.wrCtrl 1#32) { r3 with ovr := true, range := true }) =
      some (false, true) := by decide

/-- BU10 and BU11. -/
theorem test_wrCtrl_range :
    look (fun t => t.range) (exec (.wrCtrl 0xFFFFFFFC#32) { r3 with range := true }) = some true ∧
    look (fun t => t.range) (exec (.wrCtrl 3#32) { r3 with range := true }) = some false := by decide

/-- P5, line 8. -/
theorem test_wrCfg :
    look (fun t => (t.cfg, t.history)) (exec (.wrCfg 0#32) r3) =
      some (p3, [.busWr 0x10C00000000#41 ⟨false, 0#32⟩]) := by decide +kernel

/-- BU5 and BU7. -/
theorem test_busErr :
    look (fun t => t.history) (exec (.busErr false 0x02#8 0#32) r3) = some [.busRd 0x00200000000#41 ⟨true, 0#32⟩] ∧
    look (fun t => t.history) (exec (.busErr true 0x0E#8 1#32) r3) = some [.busWr 0x10E00000001#41 ⟨true, 0#32⟩] := by
  decide

/-! ### Reset, faults, refusals -/

/-- RS2: reset in the middle of an emission. -/
theorem test_reset :
    look (fun t => { t with history := [] }) (exec .reset { r3 with
      bufA := filled [1, 3], active := .B, fill := 1, pendB := true, seq := 9#32, ovr := true, range := true,
      hist := [3], phase := .emit, cur := .B, j := 2, e := 1, cap := (codes [1, 3]).map some,
      outU := [some 1, some 3], outF := [some 1, some 2] }) = some r3 := by decide +kernel

/-- RS3: no reset out of a faulted state. -/
theorem test_reset_faulted :
    exec .reset { r3 with faults := [.codeRange 0 12#16] } = .fault .quiescent := rfl

/-- PR3. -/
theorem test_unwritten_read :
    look (fun t => (t.faults, t.history)) (exec .capture { r3 with phase := .capture }) =
      some ([.unwrittenRead .A 0], [.capture]) := by decide

/-- PR5. -/
theorem test_code_range :
    look (fun t => (t.faults, t.range, t.outU, t.history)) (exec .compute
      { State.resetOf (p5 .fault) with phase := .compute, cap := [some 12#16] }) =
    some ([.codeRange 0 12#16], false, [none], [.compute]) := by decide +kernel

/-- The codes of R211's table. -/
theorem test_numbers :
    (FaultRecord.codeRange 0 0#16).number = 1 ∧ (FaultRecord.unwrittenRead .A 0).number = 2 ∧
    (RefusalRecord.sampleReservedBits 0#17).number = 3 ∧ (Refusal.cfgInvalid []).number = some 4 := by decide

/-- EN9. -/
theorem test_refused_sample :
    look (fun t => (t.isRefused, t.bufA, t.fill)) (step { r3 with sched := [.sample 0x10008#17] }) =
      some (true, [], 0) := by decide

/-! ### Scripts and the formatter -/

/-- R82, R83: `WRITES`, and `SERVICE` with one buffer pending. -/
theorem test_scripts :
    scriptWrites (codes [1, 3]) = [.sample 0x10001#17, .sample 0x10003#17] ∧
    scriptRd 0x0C#8 = [.bus 0x00C00000000#41] ∧ scriptWr 0x08#8 1#32 = [.bus 0x10800000001#41] ∧
    scriptService { r3 with pendA := true } =
      [.event 4#4, .event 5#4, .event 7#4, .event 7#4, .event 8#4, .event 9#4, .event 9#4, .event 6#4] := by decide

/-- The vectors of R205, ties included. -/
theorem test_dec6 :
    dec6 3 = "3.000000".toList ∧ dec6 (-1 / 3) = "-0.333333".toList ∧ dec6 (3 / 2000000) = "0.000002".toList ∧
    dec6 (5 / 2000000) = "0.000002".toList ∧ dec6 (-1 / 2000000) = "-0.000000".toList ∧
    dec6 (11264 / 6825) = "1.650403".toList := by decide +kernel

/-- R203: the record `(3, 1)`. -/
theorem test_record_text : recordText 3 1 = "3.000000\t1.000000\r\n".toList := by decide +kernel

/-! ### Witnesses: states and operands that meet the hypotheses of an obligation together -/

/-- Idle with buffer A pending, as P3 is after its first fill. -/
def a3 : State := { r3 with bufA := filled [1, 3], pendA := true, active := .B, seq := 1#32 }

/-- Idle with both pending, as P3 is after its second fill. -/
def ab3 : State := { a3 with bufB := filled [5, 7], pendB := true, active := .A, seq := 2#32 }

/-- Buffer A with one of its two codes captured. -/
def capture3 : State := { a3 with pendA := false, phase := .capture, j := 1, cap := [some 1#16, none] }

/-- Buffer A captured. -/
def compute3 : State := { capture3 with phase := .compute, j := 2, cap := (codes [1, 3]).map some }

/-- Buffer A's first record is due. -/
def emit3 : State := { compute3 with phase := .emit, outU := [some 1, some 3], outF := [some (1 / 2), some 2], hist := [3] }

/-- Idle with buffer B alone pending, as P3 is after its second fill with the first one served. -/
def b3 : State := { ab3 with pendA := false }

/-- P3 reset in the middle of an emission, with something in the history already. -/
def fresh3 : State := { emit3 with history := [.start] }.resetFields.record .reset

/-- A state of P3 in which buffer A is reused while pending. -/
def overrun3 : State := { ab3 with ovr := false }

theorem next_of_look {r : Result} (q : State → Bool) (h : look q r = some true) : ∃ t, r = .next t ∧ q t = true := by
  cases r with
  | next t => exact ⟨t, rfl, by simpa [look] using h⟩
  | fault _ => simp [look] at h
  | refused _ => simp [look] at h

/-- Every code of a list is at most `m`. -/
theorem codes_le {cs : List Code} {m : Nat} (h : cs.all (fun c => decide (c.toNat ≤ m)) = true) :
    ∀ c ∈ cs, c.toNat ≤ m := by simpa using h

/-- Any next state. -/
def anyNext (_ : State) : Bool := true

theorem r3_inv : r3.Inv := State.inv_of_check (by decide +kernel)
theorem a3_inv : a3.Inv := State.inv_of_check (by decide +kernel)
theorem ab3_inv : ab3.Inv := State.inv_of_check (by decide +kernel)
theorem b3_inv : b3.Inv := State.inv_of_check (by decide +kernel)
theorem fresh3_fresh : FreshlyReset fresh3 := .inl ⟨{ emit3 with history := [.start] }, exec_reset_next.2 ⟨rfl, rfl⟩⟩
theorem fresh3_valid : fresh3.cfg.valid = true := by decide +kernel
theorem capture3_inv : capture3.Inv := State.inv_of_check (by decide +kernel)
theorem emit3_inv : emit3.Inv := State.inv_of_check (by decide +kernel)

/-- Each key of R79, and the keys beside and beyond them; a bundle without `VALID`, the greatest code and the least that
sets a reserved bit. -/
theorem witness_PortDecodeFollowsTheTable :
    (0x000FFFFFFFF#41).toNat / 2 ^ 32 = 0x000 ∧ (0x00400000000#41).toNat / 2 ^ 32 = 0x004 ∧
    (0x00800000000#41).toNat / 2 ^ 32 = 0x008 ∧ (0x00C00000000#41).toNat / 2 ^ 32 = 0x00C ∧
    (0x10000000000#41).toNat / 2 ^ 32 = 0x100 ∧ (0x10400000000#41).toNat / 2 ^ 32 = 0x104 ∧
    (0x10800000000#41).toNat / 2 ^ 32 = 0x108 ∧ (0x10CFFFFFFFF#41).toNat / 2 ^ 32 = 0x10C ∧
    (∀ K ∈ [0x001, 0x003, 0x005, 0x00D, 0x010, 0x0FF, 0x101, 0x10D, 0x110, 0x1FF],
      K ∉ [0x000, 0x004, 0x008, 0x00C, 0x100, 0x104, 0x108, 0x10C]) ∧
    (0x0FFFF#17).toNat / 2 ^ 16 = 0 ∧
    ((0x1000F#17).toNat / 2 ^ 16 = 1 ∧ (0x1000F#17).toNat % 2 ^ 16 < 2 ^ 4) ∧
    ((0x10010#17).toNat / 2 ^ 16 = 1 ∧ ¬ (0x10010#17).toNat % 2 ^ 16 < 2 ^ 4) := by decide

theorem witness_DecodeReadsBackEveryEncoding :
    wellFormed p3 (.write 7#16) = true ∧ encode (.write 7#16) = some (.sample 0x10007#17) ∧
    encode (.scale 0#16) = none := by decide

theorem witness_EveryDecodedTransactionEncodesBack :
    decode p3.codeWidth (.sample 0x10007#17) = .instr (.write 7#16) ∧
    decode p3.codeWidth (.bus 0x1FFFFFFFFFF#41) = .instr (.busErr true 0xFF#8 0xFFFFFFFF#32) := by decide

theorem witness_StepRunsTheDecodedInstruction :
    { r3 with sched := [.sample 0x10005#17, .event 4#4] }.sched = .sample 0x10005#17 :: [.event 4#4] ∧
    decode p3.codeWidth (.sample 0x10005#17) = .instr (.write 5#16) := by decide

theorem witness_StepWithoutATransaction :
    a3.faults = [] ∧ a3.sched = [] ∧ (a3.phase = .idle ∧ a3.irq = true) ∧ (r3.phase = .idle ∧ r3.irq = false) ∧
    { r3 with phase := .checkA }.phase = .checkA ∧ { r3 with phase := .checkB }.phase = .checkB ∧
    capture3.phase = .capture ∧ compute3.phase = .compute ∧ emit3.phase = .emit ∧
    decode p3.codeWidth (.sample 0x0FFFF#17) = .noTransaction ∧ decode p3.codeWidth (.rst 0#1) = .noTransaction ∧
    { a3 with sched := [.event 0x3#4] }.sched = .event 0x3#4 :: [] ∧ (0x3#4).toNat < 0x4 ∧ 0xA ≤ (0xA#4).toNat ∧
    (0x0#4).toNat < 0x4 ∧ 0xA ≤ (0xF#4).toNat := by
  decide

theorem witness_ReservedSampleBitsAreRefused :
    { r3 with sched := [.sample 0x10008#17] }.faults = [] ∧
    { r3 with sched := [.sample 0x10008#17] }.sched = .sample 0x10008#17 :: [] ∧
    (0x10008#17).toNat / 2 ^ 16 = 1 ∧ ¬ (0x10008#17).toNat % 2 ^ 16 < 2 ^ p3.codeWidth := by decide

/-- One configuration that meets R5 and, by `test_config_conditions`, one that fails each condition. -/
theorem witness_InvalidConfigurationsAreRefused : p3.failing = [] ∧ (cfg 0 [1] 1 1 1).failing ≠ [] := by decide +kernel

theorem witness_ResetGivesEveryFieldItsValue : emit3.faults = [] := by decide

theorem witness_ResetMeetsTheInvariant : p3.valid = true ∧ (p5 .compute).valid = true := by decide +kernel

/-- A `WRITE` that fills (at the last index) and one that does not. -/
theorem witness_WriteStoresAndSwapsOnFill :
    (r3.faults = [] ∧ (7#16 : Code).toNat < 2 ^ r3.cfg.codeWidth ∧ r3.fill < r3.cfg.bufLen ∧ r3.fill ≠ r3.cfg.bufLen - 1) ∧
    ({ r3 with fill := 1 }.fill < r3.cfg.bufLen ∧ { r3 with fill := 1 }.fill = r3.cfg.bufLen - 1) := by decide

theorem witness_OnlyWriteChangesABuffer :
    ∃ t, exec (.write 5#16) r3 = .next t ∧ decide ((t.buf .A).read 0 ≠ (r3.buf .A).read 0) = true :=
  next_of_look _ (by decide)

/-- A pending buffer that is reused, and one reused while it is captured at `J`. -/
theorem witness_UnreadCodesChangeOnlyUnderOvr :
    overrun3.pend .A = true ∧
    (∃ t, exec (.write 6#16) overrun3 = .next t ∧ decide ((t.buf .A).read 0 ≠ (overrun3.buf .A).read 0) = true) ∧
    ({ capture3 with active := .A, fill := 1 }.phase = .capture ∧ capture3.cur = .A ∧ capture3.j ≤ 1) ∧
    (∃ t, exec (.write 6#16) { capture3 with active := .A, fill := 1 } = .next t ∧
      decide ((t.buf .A).read 1 ≠ (capture3.buf .A).read 1) = true) :=
  ⟨by decide, next_of_look _ (by decide), by decide, next_of_look _ (by decide)⟩

/-- EN4: two fills with nothing acknowledged, and a store beyond them. -/
theorem witness_ReadyEventsAlternateFromReset :
    (∃ s, exec .reset emit3 = .next s ∧ anyNext s = true) ∧
    ∃ t, RunsTo NotReset (writes [1, 2, 3, 4, 5]) r3 t ∧
      decide (t.seq = 2#32 ∧ t.ovr = true ∧ readyEvents t.history = [.B, .A]) = true :=
  ⟨next_of_look _ (by decide), run_exists noReset_spec _ (by decide)⟩

theorem witness_FillsComeEveryLWrites :
    FreshlyReset fresh3 ∧ fresh3.cfg.valid = true ∧ ∃ t, RunsTo NotReset (writes [1, 2, 3, 4, 5]) fresh3 t ∧
      decide (writeCount t.history = 5 ∧ t.fill = 1) = true :=
  ⟨fresh3_fresh, fresh3_valid, run_exists noReset_spec _ (by decide)⟩

/-- The latest entry is a fill. -/
theorem witness_FillsComeEveryLWrites_at_a_fill :
    ∃ t, RunsTo NotReset (writes [1, 2]) fresh3 t ∧
      decide (t.history = [.write 2#16 .readyA, .write 1#16 .none] ++ fresh3.history) = true :=
  run_exists noReset_spec _ (by decide)

theorem witness_StartIsEnabledExactlyWhenIdleAndPending :
    (a3.faults = [] ∧ a3.phase = .idle ∧ a3.pendA = true) ∧ (r3.faults = [] ∧ r3.pendA = false ∧ r3.pendB = false) ∧
    ({ a3 with phase := .checkB }.phase ≠ .idle) := by decide

theorem witness_CheckAAcknowledgesOrGoesOn :
    ({ a3 with phase := .checkA }.faults = [] ∧ { a3 with phase := .checkA }.pendA = true) ∧
    { r3 with phase := .checkA }.pendA = false ∧ a3.phase ≠ .checkA := by decide

theorem witness_CheckBAcknowledgesOrEnds :
    ({ ab3 with phase := .checkB }.faults = [] ∧ { ab3 with phase := .checkB }.pendB = true) ∧
    { r3 with phase := .checkB }.pendB = false ∧ a3.phase ≠ .checkB := by decide

theorem witness_SequencerMovesOnlyAlongItsTable :
    (∃ t, exec .start a3 = .next t ∧ decide (t.faults = []) = true) ∧
    (∃ t, exec .capture capture3 = .next t ∧ decide (t.faults = []) = true) ∧
    (∃ t, exec .emit emit3 = .next t ∧ decide (t.faults = []) = true) :=
  ⟨next_of_look _ (by decide), next_of_look _ (by decide), next_of_look _ (by decide)⟩

theorem witness_PendingFlagsHaveOneSetterAndOneClearer :
    (∃ t, exec (.write 3#16) { r3 with fill := 1 } = .next t ∧ (!r3.pend .A && t.pend .A) = true) ∧
    (∃ t, exec .checkA { ab3 with phase := .checkA } = .next t ∧ (ab3.pendA && !t.pendA) = true) ∧
    (∃ t, exec .checkB { ab3 with phase := .checkB } = .next t ∧ (ab3.pendB && !t.pendB) = true) :=
  ⟨next_of_look _ (by decide), next_of_look _ (by decide), next_of_look _ (by decide)⟩

/-- The last element, one before it, one that holds ⊥, and another phase. -/
theorem witness_CaptureReadsTheElementAtJ :
    (capture3.faults = [] ∧ capture3.phase = .capture ∧ capture3.j < capture3.cfg.bufLen ∧
      capture3.cap.length = capture3.cfg.bufLen ∧ (capture3.buf capture3.cur).read capture3.j = some 3#16 ∧
      capture3.j + 1 = capture3.cfg.bufLen) ∧
    (({ capture3 with j := 0 }.buf .A).read 0 = some 1#16 ∧ { capture3 with j := 0 }.j + 1 ≠ capture3.cfg.bufLen) ∧
    (capture3.buf .B).read capture3.j = none ∧ r3.phase ≠ .capture := by
  decide

theorem witness_CaptureOfAnUnwrittenElementFaults :
    { capture3 with cur := .B }.faults = [] ∧ { capture3 with cur := .B }.phase = .capture ∧
    ({ capture3 with cur := .B }.buf .B).read 1 = none := by decide

/-- All codes in range, one above `MAX_CODE` under either policy, and another phase. -/
theorem witness_ComputeScalesAndFiltersTheBlock :
    (compute3.faults = [] ∧ compute3.phase = .compute ∧ compute3.cap = (codes [1, 3]).map some ∧
      (codes [1, 3]).length = compute3.cfg.bufLen) ∧ (∀ c ∈ codes [1, 3], c.toNat ≤ compute3.cfg.maxCode) ∧
    ((codes [12]).map some = { State.resetOf (p5 .compute) with cap := [some 12#16] }.cap ∧
      (codes [12]).length = (p5 .compute).bufLen ∧ (p5 .compute).maxCode < (12#16 : Code).toNat ∧
      (p5 .compute).rangePolicy = .compute ∧ (p5 .fault).rangePolicy = .fault ∧ r3.phase ≠ .compute) :=
  ⟨by decide, codes_le (by decide), by decide⟩

/-- P3 in `COMPUTE` with `MAX_CODE` 2 and codes 1 and 3 captured. -/
def above3 (policy : RangePolicy) : State := { compute3 with cfg := { p3 with maxCode := 2, rangePolicy := policy } }

/-- The second code is the first above `MAX_CODE`, under either policy. -/
theorem witness_CodeAboveMaxFaultsUnderThatPolicy :
    (∀ policy, (above3 policy).faults = [] ∧ (above3 policy).phase = .compute ∧
      (above3 policy).cap = (codes [1, 3]).map some ∧ (codes [1, 3]).length = (above3 policy).cfg.bufLen ∧
      (codes [1, 3])[1]? = some 3#16 ∧ (above3 policy).cfg.maxCode < (3#16 : Code).toNat ∧
      (∀ m d, m < 1 → (codes [1, 3])[m]? = some d → d.toNat ≤ (above3 policy).cfg.maxCode)) ∧
    (above3 .fault).cfg.rangePolicy = .fault ∧ (above3 .compute).cfg.rangePolicy = .compute := by
  refine ⟨fun _ => ⟨rfl, rfl, rfl, rfl, rfl, (by decide : 2 < (3#16 : Code).toNat), ?_⟩, rfl, rfl⟩
  rintro m d hm hd
  obtain rfl : m = 0 := by omega
  cases hd
  exact (by decide : (1#16 : Code).toNat ≤ 2)

/-- Nothing captured at all, and nothing computed. -/
theorem witness_ComputeAndEmitCompleteOnAnyStorage :
    ({ r3 with phase := .compute }.faults = [] ∧ { r3 with phase := .compute }.cap = [none, none]) ∧
    ({ r3 with phase := .emit }.phase = .emit ∧ { r3 with phase := .emit }.e < r3.cfg.bufLen) := by decide

theorem witness_FirBlockIsTheDirectFormSum :
    p3.numerics = .exact ∧ 1 ≤ p3.taps ∧ p3.coeff.length = p3.taps ∧ ([7] : List Val).length = p3.taps - 1 ∧
    1 < ([1, 3] : List Val).length ∧ 0 < p3.taps - 1 := by decide

theorem witness_FilteringIsContinuousAcrossBlocks : 1 ≤ p3.taps ∧ ([7] : List Val).length = p3.taps - 1 := by decide

/-- Coefficients that sum to 1 over a window of one value, and equal coefficients. -/
theorem witness_FilterOutputIsAWeightedMean :
    p3.numerics = .exact ∧ p3.coeff.sum = 1 ∧
    (∀ k, k < p3.taps → (([3] : List Val) ++ [3, 3]).getD (p3.taps - 1 + 1 - k) 0 = 3) ∧
    p3.coeff = List.replicate p3.taps (1 / (p3.taps : Val)) := by decide +kernel

theorem witness_FilteringIsLinear : p3.numerics = .exact := rfl

/-- The first record, and the last one of each buffer. -/
theorem witness_EmitHandsOverRecordE :
    (emit3.faults = [] ∧ emit3.phase = .emit ∧ emit3.e < emit3.cfg.bufLen ∧ emit3.outU[emit3.e]? = some (some 1) ∧
      emit3.outF[emit3.e]? = some (some (1 / 2)) ∧ emit3.e + 1 ≠ emit3.cfg.bufLen) ∧
    ({ emit3 with e := 1 }.e + 1 = emit3.cfg.bufLen ∧ emit3.cur = .A ∧ { emit3 with cur := .B }.cur = .B) ∧
    r3.phase ≠ .emit := by
  decide +kernel

theorem witness_OutputsAreFunctionsOfTheState :
    emit3.recU = some 1 ∧ emit3.recF = some (1 / 2) ∧ emit3.faults = [] ∧ emit3.phase = .emit ∧
    emit3.e < emit3.cfg.bufLen := by decide +kernel

theorem witness_OnlyComputeAndResetWriteHist : ∃ t, exec .emit emit3 = .next t ∧ anyNext t = true :=
  next_of_look _ (by decide)

theorem witness_FirRowAnswersTheBlockFilter :
    ([0] : List Val).length = r3.cfg.taps - 1 ∧ ([1, 3] : List Val).length = r3.cfg.bufLen := by decide

theorem witness_ScaleRowAnswersTheVoltage : (7#16 : Code).toNat < 2 ^ r3.cfg.codeWidth ∧
    r3.cfg.numerics = .exact ∧ 1 ≤ r3.cfg.maxCode := by decide

theorem witness_ScalerEndPointsAndMonotonicity :
    p3.valid = true ∧ p3.numerics = .exact ∧ (0#16 : Code).toNat < (1#16 : Code).toNat := by decide +kernel

theorem witness_StatusFieldsAreInTheirPlaces : { r3 with fill := 65535 }.fill < 2 ^ 16 := by decide

theorem witness_CfgFieldsAreInTheirPlaces : (cfg 65535 [1] 16 65535 1).valid = true := by decide +kernel

theorem witness_RegisterReadsAnswerAndChangeNothing : emit3.faults = [] ∧ r3.faults = [] := by decide

theorem witness_WritesToReadOnlyRegistersAreIgnored : ab3.faults = [] := by decide

theorem witness_CtrlWriteClearsTheChosenFlags :
    { r3 with ovr := true, range := true }.faults = [] ∧ (3#32 : Word).toNat % 2 = 1 ∧
    ((2#32 : Word).toNat / 2) % 2 = 1 := by decide

theorem witness_UnmappedAccessAnswersErr : capture3.faults = [] := by decide

theorem witness_TheBusCannotTouchTheDataPath :
    { ab3 with sched := [.bus 0x10800000003#41] }.faults = [] ∧
    { ab3 with sched := [.bus 0x10800000003#41] }.sched = .bus 0x10800000003#41 :: [] := by decide

theorem witness_AFaultedBlockTakesNoStep :
    { a3 with faults := [.unwrittenRead .A 0] }.faults ≠ [] := by decide

/-- A step that adds a fault, and one in a refused run. -/
theorem witness_FaultAndRefusalRecordsArePermanent :
    (∃ t, exec .capture { r3 with phase := .capture } = .next t ∧ decide (t.faults ≠ r3.faults) = true) ∧
    (∃ t, exec .reset { a3 with refusals := [.sampleReservedBits 0x10008#17] } = .next t ∧ t.isRefused = true) :=
  ⟨next_of_look _ (by decide), next_of_look _ (by decide)⟩

theorem witness_NoStepWritesAParameter :
    (∃ t, exec .start a3 = .next t ∧ anyNext t = true) ∧ (∃ t, step a3 = .next t ∧ anyNext t = true) :=
  ⟨next_of_look _ (by decide), next_of_look _ (by decide)⟩

theorem witness_OnlyFillsCountAndSwap :
    (Fills { r3 with fill := 1 } (.write 3#16) ∧
      ∃ t, exec (.write 3#16) { r3 with fill := 1 } = .next t ∧ anyNext t = true) ∧
    (∃ t, exec (.write 3#16) r3 = .next t ∧ anyNext t = true) :=
  ⟨⟨⟨⟨3#16, rfl, by decide⟩, by decide⟩, next_of_look _ (by decide)⟩, next_of_look _ (by decide)⟩

/-- Each flag set, and each flag cleared. -/
theorem witness_StickyFlagsHaveTheirSettersAndClearers :
    (∃ t, exec (.write 6#16) overrun3 = .next t ∧ (!overrun3.ovr && t.ovr) = true) ∧
    (∃ t, exec (.wrCtrl 3#32) { r3 with ovr := true, range := true } = .next t ∧ (!t.ovr && !t.range) = true) ∧
    (∃ t, exec .compute { State.resetOf (p5 .compute) with phase := .compute, cap := [some 12#16] } = .next t ∧
      t.range = true) :=
  ⟨next_of_look _ (by decide), next_of_look _ (by decide), next_of_look _ (by decide +kernel)⟩

theorem witness_EveryStepKeepsTheInvariant :
    (emit3.Inv ∧ ∃ t, step { emit3 with sched := [.event 9#4] } = .next t ∧ anyNext t = true) ∧
    (capture3.Inv ∧ ∃ t, step capture3 = .next t ∧ anyNext t = true) :=
  ⟨⟨emit3_inv, next_of_look _ (by decide)⟩, ⟨capture3_inv, next_of_look _ (by decide)⟩⟩

theorem witness_UnwrittenReadIsUnreachable : capture3.Inv ∧ ∃ t, step capture3 = .next t ∧ anyNext t = true :=
  ⟨capture3_inv, next_of_look _ (by decide)⟩

/-- The step is a `WRITE`. -/
def isWrite : Instr → Bool
  | .write _ => true
  | _ => false

/-- The check of `DEADLINE` at one step. -/
def deadlineCheck (s : State) (i : Instr) : Bool :=
  noReset s i && (!(isWrite i && decide (s.fill + 1 = s.cfg.bufLen)) ||
    (!(s.pend s.active.other) && !(decide (s.phase = .capture ∨ s.phase = .compute ∨ s.phase = .emit) &&
      decide (s.cur = s.active.other))))

theorem deadlineCheck_spec (s : State) (i : Instr) (h : deadlineCheck s i = true) : NotReset s i ∧ DeadlineMet s i := by
  simp only [deadlineCheck, Bool.and_eq_true, Bool.or_eq_true] at h
  refine ⟨noReset_spec s i h.1, fun hf => ?_⟩
  obtain ⟨⟨c, rfl, _⟩, hl⟩ := hf
  have := h.2.resolve_left (by simp [isWrite, hl])
  simp only [Bool.not_eq_true', Bool.and_eq_false_imp, decide_eq_true_eq, decide_eq_false_iff_not] at this
  exact ⟨this.1, fun hp => this.2 hp.1 hp.2⟩

/-- Two fills after a reset in mid-emission, the first one served before the second. -/
theorem witness_TheDeadlineRulesOutOverrun :
    FreshlyReset fresh3 ∧ fresh3.cfg.valid = true ∧ ∃ t, RunsTo (fun u i => NotReset u i ∧ DeadlineMet u i)
      (writes [1, 3] ++ [.start, .checkA] ++ process 2 ++ [.checkB] ++ writes [5, 7]) fresh3 t ∧
      decide (t.pendB = true ∧ t.seq = 2#32) = true :=
  ⟨fresh3_fresh, fresh3_valid, run_exists deadlineCheck_spec _ (by decide +kernel)⟩

/-- One fill, served: a quiescent point with two records. -/
theorem witness_UnderTheDeadlineTheRecordsAreTheAcquiredStream :
    FreshlyReset fresh3 ∧ fresh3.cfg.valid = true ∧ fresh3.cfg.numerics = .exact ∧
    ∃ t, RunsTo (fun u i => NotReset u i ∧ DeadlineMet u i)
      (writes [1, 3] ++ [.start, .checkA] ++ process 2 ++ [.checkB]) fresh3 t ∧
      decide (t.phase = .idle ∧ t.irq = false ∧ (recordsOf t.history).length = 2) = true :=
  ⟨fresh3_fresh, fresh3_valid, rfl, run_exists deadlineCheck_spec _ (by decide +kernel)⟩

/-- The check of the premises of `WithoutOverrunTheFillIsCaptured` for buffer A. -/
def captureCheck (s : State) (i : Instr) : Bool :=
  noReset s i && !s.corrupt && (s.pendA || (decide (s.phase = .capture) && decide (s.cur = .A)))

theorem captureCheck_spec (s : State) (i : Instr) (h : captureCheck s i = true) :
    NotReset s i ∧ NoOverrun s i ∧ (s.pend .A = true ∨ (s.phase = .capture ∧ s.cur = .A)) := by
  simp only [captureCheck, Bool.and_eq_true, Bool.or_eq_true, decide_eq_true_eq, Bool.not_eq_true'] at h
  refine ⟨noReset_spec s i h.1.1, fun _ hc => ?_, h.2⟩
  have : s.corrupt = true := by
    simp only [State.corrupt, Bool.or_eq_true, Bool.and_eq_true, decide_eq_true_eq]
    exact hc.imp id fun ⟨h1, h2, h3⟩ => ⟨⟨h1, h2⟩, h3⟩
  rw [h.1.2] at this
  simp at this

/-- Buffer A is served while buffer B receives a sample. -/
theorem witness_WithoutOverrunTheFillIsCaptured :
    a3.Inv ∧ a3.pend .A = true ∧ ¬ ((a3.phase = .capture ∨ a3.phase = .compute) ∧ a3.cur = .A) ∧
    ∃ t, RunsTo (fun u i => NotReset u i ∧ NoOverrun u i ∧ (u.pend .A = true ∨ (u.phase = .capture ∧ u.cur = .A)))
      ([.start, .checkA, .capture] ++ writes [5] ++ [.capture]) a3 t ∧
      decide (t.phase = .compute ∧ t.cur = .A) = true :=
  ⟨a3_inv, by decide, by decide, run_exists captureCheck_spec _ (by decide)⟩

theorem witness_TheFilterSeesOneStream :
    FreshlyReset fresh3 ∧ fresh3.cfg.valid = true ∧ fresh3.cfg.numerics = .exact ∧
    ∃ t, RunsTo NotReset (writes [1, 3] ++ [.start, .checkA, .capture, .capture, .compute]) fresh3 t ∧
      decide (t.phase = .emit) = true :=
  ⟨fresh3_fresh, fresh3_valid, rfl, run_exists noReset_spec _ (by decide +kernel)⟩

/-- Buffer A alone pending, and buffer B alone pending. -/
theorem witness_AnInvocationServesItsBufferIn2LPlus4Steps :
    (a3.Inv ∧ (a3.faults = [] ∧ a3.phase = .idle ∧ a3.pend .A = true ∧ a3.pend (Buf.other .A) = false) ∧
      ((codes [1, 3]).length = a3.cfg.bufLen ∧ ∀ k, k < a3.cfg.bufLen → (a3.buf .A).read k = (codes [1, 3])[k]?) ∧
      (∀ c ∈ codes [1, 3], c.toNat ≤ a3.cfg.maxCode)) ∧
    (b3.Inv ∧ (b3.faults = [] ∧ b3.phase = .idle ∧ b3.pend .B = true ∧ b3.pend (Buf.other .B) = false) ∧
      ((codes [5, 7]).length = b3.cfg.bufLen ∧ ∀ k, k < b3.cfg.bufLen → (b3.buf .B).read k = (codes [5, 7])[k]?) ∧
      (∀ c ∈ codes [5, 7], c.toNat ≤ b3.cfg.maxCode)) :=
  ⟨⟨a3_inv, by decide, by decide, codes_le (by decide)⟩, ⟨b3_inv, by decide, by decide, codes_le (by decide)⟩⟩

theorem witness_AnInvocationServesABeforeB :
    ab3.Inv ∧ (ab3.faults = [] ∧ ab3.phase = .idle ∧ ab3.pendA = true ∧ ab3.pendB = true) ∧
    ((codes [1, 3]).length = ab3.cfg.bufLen ∧ ∀ k, k < ab3.cfg.bufLen → ab3.bufA.read k = (codes [1, 3])[k]?) ∧
    ((codes [5, 7]).length = ab3.cfg.bufLen ∧ ∀ k, k < ab3.cfg.bufLen → ab3.bufB.read k = (codes [5, 7])[k]?) ∧
    (∀ c ∈ codes [1, 3] ++ codes [5, 7], c.toNat ≤ ab3.cfg.maxCode) :=
  ⟨ab3_inv, by decide, by decide, by decide, codes_le (by decide)⟩

/-- The steps of an infinite execution: the invocation that serves buffer A, then the host reads `STATUS` for ever. -/
def servedStep (n : Nat) : Instr := ([.start, .checkA] ++ process 2 ++ [.checkB])[n]?.getD (.rdStatus 0#32)

/-- Its states, from `a3`. -/
def served : Nat → State
  | 0 => a3
  | n + 1 => (look id (exec (servedStep n) (served n))).getD (served n)

theorem served_next {n : Nat} (h : (look id (exec (servedStep n) (served n))).isSome = true) :
    exec (servedStep n) (served n) = .next (served (n + 1)) := by
  rw [served]
  cases hx : exec (servedStep n) (served n) with
  | next t => rfl
  | fault _ => rw [hx] at h; simp [look] at h
  | refused _ => rw [hx] at h; simp [look] at h

/-- A read of `STATUS` completes where `FAULTS` is empty. -/
theorem served_read {n : Nat} (h1 : servedStep n = .rdStatus 0#32) (h2 : (served n).faults = []) :
    exec (servedStep n) (served n) = .next (served (n + 1)) ∧
    ∃ ev, served (n + 1) = (served n).record ev := by
  have hx := (exec_rdStatus_next (w := 0#32)).2 ⟨h2, rfl⟩
  rw [← h1] at hx
  have hn := served_next (n := n) (by rw [hx]; rfl)
  exact ⟨hn, _, Host.Outcome.next.inj (hn.symm.trans hx)⟩

/-- From its eighth state on the block is idle with nothing pending. -/
theorem served_late : ∀ d, servedStep (8 + d) = .rdStatus 0#32 ∧ (served (8 + d)).faults = [] ∧
    (served (8 + d)).phase = .idle ∧ (served (8 + d)).irq = false
  | 0 => ⟨by decide, by decide +kernel⟩
  | d + 1 => by
    obtain ⟨h1, h2, h3, h4⟩ := served_late d
    obtain ⟨-, ev, hn⟩ := served_read h1 h2
    refine ⟨?_, ?_⟩
    · show ([Instr.start, .checkA] ++ process 2 ++ [.checkB])[8 + (d + 1)]?.getD _ = _
      rw [List.getElem?_eq_none (by simp [process])]; rfl
    · rw [show 8 + (d + 1) = 8 + d + 1 by omega, hn]
      exact ⟨h2, h3, h4⟩

theorem served_run : InfiniteRun (fun s i => IsStep s i ∧ NotReset s i) served servedStep := by
  intro n
  by_cases hn : n < 8
  · have h1 : ∀ m, m < 8 → (look id (exec (servedStep m) (served m))).isSome = true := by decide +kernel
    have h2 : ∀ m, m < 8 → wellFormed (served m).cfg (servedStep m) = true := by decide +kernel
    refine ⟨⟨⟨h2 n hn, ?_, ?_⟩, ?_⟩, served_next (h1 n hn)⟩ <;>
      (interval_cases n <;> simp [servedStep, process, NotReset])
  · obtain ⟨d, rfl⟩ : ∃ d, n = 8 + d := ⟨n - 8, by omega⟩
    obtain ⟨h1, h2, -⟩ := served_late d
    exact ⟨⟨⟨by rw [h1]; rfl, by simp [h1], by simp [h1]⟩, by simp [h1, NotReset]⟩, (served_read h1 h2).1⟩

/-- No step of the sequencer stays enabled. -/
theorem served_fair (i : Instr) (hi : i ∈ [Instr.start, .checkA, .checkB, .capture, .compute, .emit]) :
    TakenIfItStaysEnabled i served servedStep := by
  intro n h
  exfalso
  obtain ⟨t, ht⟩ := h (8 + n) (by omega)
  obtain ⟨-, -, hp, hq⟩ := served_late n
  simp only [List.mem_cons, List.not_mem_nil, or_false] at hi
  rcases hi with rfl | rfl | rfl | rfl | rfl | rfl
  · have := (exec_start_next.1 ht).2.2.1; simp [hq] at this
  · have := (exec_checkA_next.1 ht).2.1; simp [hp] at this
  · have := (exec_checkB_next.1 ht).2.1; simp [hp] at this
  · have := (exec_capture_next.1 ht).2.1; simp [hp] at this
  · have := (exec_compute_next.1 ht).2.1; simp [hp] at this
  · have := (exec_emit_next.1 ht).2.1; simp [hp] at this

theorem witness_EveryInvocationEnds :
    (served 0).Inv ∧ InfiniteRun IsStep served servedStep ∧ WeaklyFair served servedStep ∧
    SinkKeepsAccepting served servedStep :=
  ⟨a3_inv, fun n => ⟨(served_run n).1.1, (served_run n).2⟩, fun i hi => served_fair i (by
    simp only [List.mem_cons, List.not_mem_nil, or_false] at hi ⊢; tauto), served_fair .emit (by simp)⟩

theorem witness_EveryReadyConditionIsAcknowledged :
    (served 0).Inv ∧ InfiniteRun (fun s i => IsStep s i ∧ NotReset s i) served servedStep ∧
    WeaklyFair served servedStep ∧ SinkKeepsAccepting served servedStep ∧ (served 0).pend .A = true :=
  ⟨a3_inv, served_run, witness_EveryInvocationEnds.2.2.1, witness_EveryInvocationEnds.2.2.2, rfl⟩

/-- A tie. -/
theorem witness_TextRoundsHalfToEven :
    |((microUnits (1 / 2000000) : Nat) : Val) - |(1 / 2000000 : Val)| * 1000000| = 1 / 2 := by
  have : microUnits (1 / 2000000) = 0 := by decide +kernel
  rw [this]
  norm_num [abs_of_pos]

end Sys2Proof.Tests
end

section
/-! PROOFS. The family `00_scope.md`. First the layer these proofs need: the conditions of R5 by name, the parameters along
a step (R6), and what `step` answers for each kind of schedule (R10, R120). Then the statements O8, O45, O5 and O6. -/

namespace Sys2Proof

/-! ### The conditions of R5, by name -/

/-- Condition `k` of R5 holds of the configuration. -/
def Config.Meets (c : Config) : ConfigCondition → Prop
  | .bufLen => 1 ≤ c.bufLen ∧ c.bufLen ≤ 65535
  | .taps => 1 ≤ c.taps ∧ c.taps ≤ 4095
  | .coeffLength => c.coeff.length = c.taps
  | .codeWidth => 1 ≤ c.codeWidth ∧ c.codeWidth ≤ 16
  | .maxCode => 1 ≤ c.maxCode ∧ c.maxCode ≤ 2 ^ c.codeWidth - 1
  | .vref => 0 < c.vref

theorem Config.valid_iff_meets (c : Config) : c.valid = true ↔ ∀ k, c.Meets k := by
  rw [Config.valid_iff]
  constructor
  · rintro ⟨hL, hT, hC, hN, hM, hV⟩ k
    cases k
    exacts [hL, hT, hC, hN, hM, hV]
  · exact fun h => ⟨h .bufLen, h .taps, h .coeffLength, h .codeWidth, h .maxCode, h .vref⟩

theorem Config.mem_failing_iff_not_meets (c : Config) (k : ConfigCondition) : k ∈ c.failing ↔ ¬ c.Meets k := by
  rw [Config.mem_failing]
  cases k <;> simp [Config.conditions, Config.Meets]

end Sys2Proof

namespace Sys2Proof.Machine

theorem State.create_of_valid {c : Config} (h : c.valid = true) : State.create c = .next (State.resetOf c) := if_pos h

theorem State.create_of_not_valid {c : Config} (h : ¬ c.valid = true) :
    State.create c = .refused (.cfgInvalid c.failing) := if_neg h

/-- R29: after creation the delay line has `T - 1` entries. -/
theorem State.resetOf_hist_length (c : Config) : (State.resetOf c).hist.length = c.taps - 1 := List.length_replicate

/-! ### The parameters along a step (R6) -/

@[simp] theorem State.resetFields_cfg (s : State) : s.resetFields.cfg = s.cfg := rfl

@[simp] theorem State.emitStep_cfg (s : State) : s.emitStep.cfg = s.cfg := rfl

@[simp] theorem State.writeStep_cfg (s : State) (c : Code) : (s.writeStep c).cfg = s.cfg := by
  simp only [State.writeStep_fields]

@[simp] theorem State.check_cfg (s : State) (x : Buf) (p : Phase) : (s.check x p).cfg = s.cfg := by
  simp only [State.check_fields]

/-- By the shapes of a taken step: each is made of operations that leave `cfg` alone. -/
theorem exec_keeps_cfg {s t : State} {i : Instr} (h : exec i s = .next t) : t.cfg = s.cfg := by
  cases exec_taken h <;> simp

theorem step_keeps_cfg {s t : State} (h : step s = .next t) : t.cfg = s.cfg := by
  obtain ⟨i, u, hu, hx⟩ | ⟨-, ht⟩ | ⟨-, b, rfl⟩ := step_cases h
  · rw [exec_keeps_cfg hx]
    rcases hu with rfl | rfl <;> rfl
  · rcases ht with rfl | rfl <;> rfl
  · rfl

/-! ### What a step answers for each kind of schedule -/

theorem State.popSched_of_cons {s : State} {t : Transaction} {rest : List Transaction} (hs : s.sched = t :: rest) :
    s.popSched = { s with sched := rest } := by
  rw [State.popSched, hs, List.tail_cons]

theorem noStep_eq {s : State} (hf : s.faults = []) : noStep s = .next s := whenRunning_eq s _ hf

theorem step_of_sequencerStep {s : State} {i : Instr} (hs : s.sched = []) (hi : s.sequencerStep = some i) :
    step s = exec i s := by
  rw [step_of_nil hs, hi]

theorem step_of_no_sequencerStep {s : State} (hf : s.faults = []) (hs : s.sched = []) (hi : s.sequencerStep = none) :
    step s = .next s := by
  rw [step_of_nil hs, hi]
  exact noStep_eq hf

theorem step_of_noTransaction {s : State} {t : Transaction} {rest : List Transaction} (hf : s.faults = [])
    (hs : s.sched = t :: rest) (hd : decode s.cfg.codeWidth t = .noTransaction) :
    step s = .next { s with sched := rest } := by
  have hstep : step s = noStep s.popSched := by simp only [step, hs, hd]
  rw [hstep, noStep_eq (s := s.popSched) hf, State.popSched_of_cons hs]

theorem step_of_noSuchEvent {s : State} {t : Transaction} {rest : List Transaction} {k : BitVec 4} (hf : s.faults = [])
    (hs : s.sched = t :: rest) (hd : decode s.cfg.codeWidth t = .noSuchEvent k) :
    step s = .refused (.noSuchEvent k) := by
  have hstep : step s = rejectEvent k s.popSched := by simp only [step, hs, hd]
  rw [hstep]
  exact whenRunning_eq s.popSched _ hf

/-- R77: the kinds of the sequencer's steps are 0x4 to 0x9, and every other one is rejected by name. -/
theorem decodeEvent_noSuchEvent {k : BitVec 4} (h : k.toNat < 0x4 ∨ 0xA ≤ k.toNat) : decodeEvent k = .noSuchEvent k := by
  have hne : ∀ n : BitVec 4, 0x4 ≤ n.toNat ∧ n.toNat < 0xA → k ≠ n := by
    rintro n hn rfl
    omega
  simp only [decodeEvent, hne kindStart (by decide), hne kindCheckA (by decide), hne kindCheckB (by decide),
    hne kindCapture (by decide), hne kindCompute (by decide), hne kindEmit (by decide), if_false]

end Sys2Proof.Machine

/-! ### The statements -/

namespace Sys2Proof.Proofs

open Sys2Proof.Machine

/-- Settles O8: the conditions of the statement are `Config.Meets`, which decides both validity and what a refusal records. -/
theorem invalidConfigurationsAreRefused : Obligations.InvalidConfigurationsAreRefused := by
  intro c ok
  have hok : ∀ k, ok k ↔ c.Meets k := fun k => by cases k <;> exact Iff.rfl
  have hvalid : c.valid = true ↔ ∀ k, ok k := by simp only [hok, Config.valid_iff_meets]
  refine ⟨fun h => ⟨State.create_of_valid (hvalid.2 h), State.resetOf_hist_length c⟩, fun h => ?_⟩
  refine ⟨c.failing, State.create_of_not_valid (mt hvalid.1 h), fun k => ?_⟩
  rw [hok, Config.mem_failing_iff_not_meets]

/-- Settles O45: every shape of a taken step keeps `cfg`, and a step takes one or only writes `sched` and `refusals`. -/
theorem noStepWritesAParameter : Obligations.NoStepWritesAParameter :=
  ⟨fun _ _ _ => exec_keeps_cfg, fun _ _ => step_keeps_cfg⟩

/-- Settles O5: taking the head off the schedule leaves `rest`. -/
theorem stepRunsTheDecodedInstruction : Obligations.StepRunsTheDecodedInstruction := by
  intro s t rest i hs hd
  rw [step_of_decode hs hd, State.popSched_of_cons hs]

/-- Settles O6: with nothing scheduled `sequencerStep` of the phase decides; else what the head decodes to. -/
theorem stepWithoutATransaction : Obligations.StepWithoutATransaction := by
  intro s hf
  refine ⟨fun hs hp hi => ?_, fun hs hp hi => ?_, fun hs hp => ?_, fun hs hp => ?_, fun hs hp => ?_, fun hs hp => ?_,
    fun hs hp => ?_, fun t rest hs hd => ?_, fun k rest hs hk => ?_⟩
  · exact step_of_sequencerStep hs (by simp [State.sequencerStep, hp, hi])
  · exact step_of_no_sequencerStep hf hs (by simp [State.sequencerStep, hp, hi])
  · exact step_of_sequencerStep hs (by simp [State.sequencerStep, hp])
  · exact step_of_sequencerStep hs (by simp [State.sequencerStep, hp])
  · exact step_of_sequencerStep hs (by simp [State.sequencerStep, hp])
  · exact step_of_sequencerStep hs (by simp [State.sequencerStep, hp])
  · exact step_of_no_sequencerStep hf hs (by simp [State.sequencerStep, hp])
  · exact step_of_noTransaction hf hs hd
  · exact step_of_noSuchEvent hf hs (decodeEvent_noSuchEvent hk)

end Sys2Proof.Proofs
end

section
/-! PROOFS. The family `10_state.md`. First the layer these proofs need: that an agent's step is not enabled in a faulted
state (R37), which step writes what (one lemma per field that has named writers), and that each state operation keeps the
invariant of R39. Then the statements O48, O12, O20, O25, O36, O37, O43, O44, O46, O47, O49, O10 and O31. -/

namespace Sys2Proof.Machine

variable {s t : State} {i : Instr}

/-! ### A faulted block (R37)

The rows that are steps of an agent are the ones with an encoding: the two function rows have none. -/

theorem decodeBus_isSome_encode (b : BitVec 41) : (encode (decodeBus b)).isSome := by
  simp only [decodeBus]
  repeat' split
  all_goals rfl

theorem decode_isSome_encode {n : Nat} {tr : Transaction} (h : decode n tr = .instr i) : (encode i).isSome := by
  cases tr with
  | rst bit =>
    rw [decode] at h
    split at h <;> cases h
    rfl
  | sample b =>
    rw [decode, decodeSample] at h
    split at h
    · split at h <;> cases h
      rfl
    · cases h
  | bus b =>
    rw [decode] at h
    cases h
    exact decodeBus_isSome_encode b
  | event k =>
    rw [decode, decodeEvent] at h
    repeat' split at h
    all_goals cases h
    all_goals rfl

theorem State.sequencerStep_isSome_encode (h : s.sequencerStep = some i) : (encode i).isSome := by
  unfold State.sequencerStep at h
  split at h
  case h_1 =>
    split at h <;> cases h
    rfl
  all_goals cases h
  all_goals rfl

/-- Every step of an agent is guarded by `whenRunning`. -/
theorem exec_faulted (hf : s.faults ≠ []) (hi : (encode i).isSome) : exec i s = .fault .quiescent := by
  cases i with
  | scale c => cases hi
  | fir h v => cases hi
  | busErr we a w => cases we <;> exact whenRunning_faulted s _ hf
  | _ => exact whenRunning_faulted s _ hf

theorem step_faulted (hf : s.faults ≠ []) : step s = .fault .quiescent := by
  unfold step
  split
  · split
    next i hi => exact exec_faulted hf (State.sequencerStep_isSome_encode hi)
    next => exact whenRunning_faulted s _ hf
  · split
    next i hi => exact exec_faulted (s := s.popSched) hf (decode_isSome_encode hi)
    all_goals exact whenRunning_faulted s.popSched _ hf

theorem faults_eq_nil_of_step (h : step s = .next t) : s.faults = [] := by
  by_contra hf
  rw [step_faulted hf] at h
  cases h

/-! ### Which step writes what -/

theorem fills_write_iff {c : Code} :
    Fills s (.write c) ↔ codeFits s.cfg.codeWidth c = true ∧ s.fill + 1 = s.cfg.bufLen := by
  simp [Fills]

theorem not_fills_of_not_write (hw : ∀ c, i ≠ .write c) : ¬ Fills s i := fun ⟨⟨c, hc, _⟩, _⟩ => hw c hc

/-- What the Engine alone owns: only `RESET` and `WRITE` touch the buffers, `ACTIVE`, `FILL` and `SEQ`. -/
theorem Taken.engine_eq (h : Taken s i t) (hr : i ≠ .reset) (hw : ∀ c, i ≠ .write c) :
    (∀ x, t.buf x = s.buf x) ∧ t.active = s.active ∧ t.fill = s.fill ∧ t.seq = s.seq := by
  cases h with
  | reset => exact absurd rfl hr
  | write c => exact absurd rfl (hw c)
  | checkA => simp [State.check_fields]
  | checkB => simp [State.check_fields]
  | emit => simp [State.emitStep]
  | _ => simp

theorem State.pend_check_cases (s : State) (x y : Buf) (p : Phase) :
    (s.check x p).pend y = s.pend y ∨ ((s.check x p).pend y = false ∧ y = x) := by
  rw [State.pend_check]
  split
  next hx => exact .inr ⟨rfl, hx⟩
  next => exact .inl rfl

/-- R25: what a step does to a pending flag. -/
theorem Taken.pend_cases (h : Taken s i t) (hr : i ≠ .reset) (x : Buf) :
    t.pend x = s.pend x ∨ (t.pend x = true ∧ Fills s i ∧ x = s.active) ∨ (t.pend x = false ∧ i = checkOf x) := by
  cases h with
  | reset => exact absurd rfl hr
  | write c _ hc _ =>
    rw [State.pend_writeStep]
    split
    next hx => exact .inr (.inl ⟨rfl, fills_write_iff.2 ⟨hc, hx.2⟩, hx.1⟩)
    next => exact .inl rfl
  | checkA =>
    obtain hx | ⟨hx, rfl⟩ := s.pend_check_cases .A x .checkB
    exacts [.inl hx, .inr (.inr ⟨hx, rfl⟩)]
  | checkB =>
    obtain hx | ⟨hx, rfl⟩ := s.pend_check_cases .B x .idle
    exacts [.inl hx, .inr (.inr ⟨hx, rfl⟩)]
  | emit => exact .inl (by simp [State.emitStep])
  | _ => exact .inl (by simp)

/-- R27: what a step does to `OVR`. -/
theorem Taken.ovr_cases (h : Taken s i t) (hr : i ≠ .reset) :
    t.ovr = s.ovr ∨ (t.ovr = true ∧ (∃ c, i = .write c) ∧ Corrupts s) ∨
      (t.ovr = false ∧ ∃ w : Word, i = .wrCtrl w ∧ w.getLsbD 0 = true) := by
  cases h with
  | reset => exact absurd rfl hr
  | write c =>
    rw [(s.writeStep_fields c).1]
    cases hc : s.corrupt
    · exact .inl (Bool.or_false _)
    · exact .inr (.inl ⟨Bool.or_true _, ⟨c, rfl⟩, s.corrupt_iff.1 hc⟩)
  | wrCtrl w =>
    rw [State.record_ovr, State.ctrlClear_ovr]
    cases hw : ctrlOvrClr w
    · exact .inl (Bool.and_true _)
    · exact .inr (.inr ⟨Bool.and_false _, w, rfl, hw⟩)
  | checkA => exact .inl (by simp [State.check_fields])
  | checkB => exact .inl (by simp [State.check_fields])
  | _ => exact .inl rfl

/-- R28: what a step does to `RANGE`. -/
theorem Taken.range_cases (h : Taken s i t) (hr : i ≠ .reset) :
    t.range = s.range ∨ (t.range = true ∧ i = .compute) ∨
      (t.range = false ∧ ∃ w : Word, i = .wrCtrl w ∧ w.getLsbD 1 = true) := by
  cases h with
  | reset => exact absurd rfl hr
  | write c => exact .inl (by simp [State.writeStep_fields])
  | wrCtrl w =>
    rw [State.record_range, State.ctrlClear_range]
    cases hw : ctrlRangeClr w
    · exact .inl (Bool.and_true _)
    · exact .inr (.inr ⟨Bool.and_false _, w, rfl, hw⟩)
  | compute r _ _ hrange =>
    obtain ⟨-, rfl⟩ | ⟨-, -, rfl⟩ := hrange
    · exact .inl rfl
    · exact .inr (.inl ⟨rfl, rfl⟩)
  | checkA => exact .inl (by simp [State.check_fields])
  | checkB => exact .inl (by simp [State.check_fields])
  | _ => exact .inl rfl

/-- R37: what a step does to `FAULTS`: nothing, or it raises one of the two faults of R211, each in its own step. -/
theorem Taken.faults_cases (h : Taken s i t) :
    t.faults = s.faults ∨
    (i = .capture ∧ s.phase = .capture ∧ s.j < s.cfg.bufLen ∧ (s.buf s.cur).read s.j = none ∧
      t.faults = s.faults.insert (.unwrittenRead s.cur s.j)) ∨
    (i = .compute ∧ ∃ k c, t.faults = s.faults.insert (.codeRange k c)) := by
  cases h with
  | unwritten _ hp hj hr => exact .inr (.inl ⟨rfl, hp, hj, hr, rfl⟩)
  | codeRange k => exact .inr (.inr ⟨rfl, k, _, rfl⟩)
  | write c => exact .inl (by simp [State.writeStep_fields])
  | checkA => exact .inl (by simp [State.check_fields])
  | checkB => exact .inl (by simp [State.check_fields])
  | _ => exact .inl rfl

/-- R37: a step only ever adds to what was refused. -/
theorem Taken.refusals_append (h : Taken s i t) : ∃ rs, t.refusals = s.refusals ++ rs := by
  cases h with
  | refused c => exact ⟨_, rfl⟩
  | write c => exact ⟨[], by simp [State.writeStep_fields]⟩
  | checkA => exact ⟨[], by simp [State.check_fields]⟩
  | checkB => exact ⟨[], by simp [State.check_fields]⟩
  | _ => exact ⟨[], (List.append_nil _).symm⟩

theorem State.isRefused_iff : s.isRefused = true ↔ s.refusals ≠ [] := by
  simp [State.isRefused]

/-- What the three possibilities for a flag say of its change from `a` to `b`: `P` where it is set, `Q` where it is cleared. -/
theorem flag_change {a b : Bool} {P Q : Prop} (h : b = a ∨ (b = true ∧ P) ∨ (b = false ∧ Q)) :
    (a = false → b = true → P) ∧ (a = true → b = false → Q) := by
  obtain rfl | ⟨rfl, hP⟩ | ⟨rfl, hQ⟩ := h
  · cases b <;> simp
  · exact ⟨fun _ _ => hP, nofun⟩
  · exact ⟨nofun, fun _ _ => hQ⟩

/-! ### The invariant of R39, operation by operation

An operation that writes none of the fields the invariant speaks of keeps it; the others are given clause by clause where they
write. -/

theorem State.Inv.record (h : s.Inv) (ev : Event) : (s.record ev).Inv := { h with }

theorem State.Inv.raise (h : s.Inv) (f : FaultRecord) : (s.raise f).Inv := { h with }

theorem State.Inv.refuse (h : s.Inv) (r : RefusalRecord) : (s.refuse r).Inv := { h with }

theorem State.Inv.answer (h : s.Inv) (r : FnResult) : (s.answer r).Inv := { h with }

theorem State.Inv.popSched (h : s.Inv) : s.popSched.Inv := { h with }

theorem State.Inv.ctrlClear (h : s.Inv) (w : Word) : (s.ctrlClear w).Inv := { h with }

theorem State.Inv.bufLen_pos (h : s.Inv) : 0 < s.cfg.bufLen := Nat.zero_lt_of_lt h.fill_lt

/-- R39 of the reset state: nothing is stored, nothing is pending, and every sequence has its length. -/
theorem State.resetOf_inv {c : Config} (hc : c.valid = true) : (State.resetOf c).Inv where
  cfg_valid := hc
  mem_wf x := by cases x <;> rfl
  mem_code x i d h := by cases x <;> cases h
  fill_lt := ((Config.valid_iff c).1 hc).1.1
  stored i h := absurd h (Nat.not_lt_zero i)
  pend_full x i h := by cases x <;> cases h
  capture_full h := by cases h
  j_lt h := by cases h
  j_le := Nat.zero_le _
  e_lt h := by cases h
  e_le := Nat.zero_le _
  cap_len := List.length_replicate
  cap_code i d h := by simp [State.resetOf, List.getElem?_replicate] at h
  cap_part h := by cases h
  cap_full h := by simp [State.resetOf] at h
  out_len := ⟨List.length_replicate, List.length_replicate⟩
  out_full h := by cases h
  hist_len := List.length_replicate

theorem State.Inv.resetFields (h : s.Inv) : s.resetFields.Inv := { State.resetOf_inv h.cfg_valid with }

/-- Moving the sequencer to a phase in which it is not processing a buffer. -/
theorem State.Inv.goTo (h : s.Inv) {p : Phase} (hp : p ∉ [Phase.capture, .compute, .emit]) : (s.goTo p).Inv := by
  simp only [List.mem_cons, List.not_mem_nil, or_false, not_or] at hp
  obtain ⟨hcap, hcom, hem⟩ := hp
  exact { h with
    capture_full := fun hc => absurd hc hcap
    j_lt := fun hc => absurd hc hcap
    e_lt := fun he => absurd he hem
    cap_part := fun hc => absurd hc hcap
    cap_full := fun hc => absurd hc (not_or.2 ⟨hcom, hem⟩)
    out_full := fun he => absurd he hem }

/-- R39 (vi) is what makes the capture it begins safe: a pending buffer is full. -/
theorem State.Inv.acknowledge (h : s.Inv) {x : Buf} (hx : s.pend x = true) : (s.acknowledge x).Inv where
  cfg_valid := by simpa using h.cfg_valid
  mem_wf := by simpa using h.mem_wf
  mem_code := by simpa using h.mem_code
  fill_lt := by simpa using h.fill_lt
  stored := by simpa using h.stored
  pend_full y i hy := by
    rw [State.pend_acknowledge] at hy
    split at hy
    · cases hy
    · simpa using h.pend_full y i hy
  capture_full _ i := by simpa using h.pend_full x i hx
  j_lt _ := by simpa using h.bufLen_pos
  j_le := by simp
  e_lt hp := by simp at hp
  e_le := by simpa using h.e_le
  cap_len := by simpa using h.cap_len
  cap_code := by simpa using h.cap_code
  cap_part _ i hi := by simp at hi
  cap_full hp := by simp at hp
  out_len := by simpa using h.out_len
  out_full hp := by simp at hp
  hist_len := by simpa using h.hist_len

theorem State.Inv.check (h : s.Inv) (x : Buf) {p : Phase} (hp : p ∉ [Phase.capture, .compute, .emit]) :
    (s.check x p).Inv := by
  obtain ⟨hx, heq⟩ | ⟨-, heq⟩ := s.check_cases x p <;> rw [heq]
  · exact h.acknowledge hx
  · exact h.goTo hp

/-- A `WRITE` leaves no element unwritten that was written. -/
theorem State.read_writeStep_ne_none (c : Code) {x : Buf} {k : Nat} (h : (s.buf x).read k ≠ none) :
    ((s.writeStep c).buf x).read k ≠ none := by
  rw [State.read_writeStep]
  split
  · simp
  · exact h

/-- After the store of this pass, every element of the active buffer up to `FILL` is written. -/
theorem State.Inv.written_upto_fill (h : s.Inv) (c : Code) {k : Nat} (hk : k < s.fill + 1) :
    ((s.writeStep c).buf s.active).read k ≠ none := by
  obtain hlt | rfl := Nat.lt_succ_iff_lt_or_eq.1 hk
  · exact State.read_writeStep_ne_none c (h.stored k hlt)
  · simp [State.read_writeStep]

theorem State.Inv.writeStep (h : s.Inv) {c : Code} (hc : codeFits s.cfg.codeWidth c = true) : (s.writeStep c).Inv := by
  obtain ⟨-, -, hhist, hphase, hcur, hj, hcap, hU, hF, he, -, -, hcfg, -⟩ := s.writeStep_fields c
  exact
  { cfg_valid := by rw [hcfg]; exact h.cfg_valid
    mem_wf := s.wf_writeStep c h.mem_wf
    mem_code := by
      intro x k d hr
      rw [hcfg]
      rw [State.read_writeStep] at hr
      split at hr
      next hk =>
        cases hr
        exact ⟨hk.2 ▸ h.fill_lt, hc⟩
      next => exact h.mem_code x k d hr
    fill_lt := by
      rw [hcfg]
      have hlt := h.fill_lt
      obtain ⟨-, hf, -⟩ | ⟨hne, hf, -⟩ := s.writeStep_swap c <;> omega
    stored := by
      obtain ⟨-, hf, -⟩ | ⟨-, hf, -, ha, -⟩ := s.writeStep_swap c
      · simp [hf]
      · rw [hf, ha]
        exact fun k hk => h.written_upto_fill c hk
    pend_full := by
      intro x k hx hk
      rw [State.pend_writeStep] at hx
      rw [hcfg] at hk
      split at hx
      next hfill =>
        obtain ⟨rfl, hL⟩ := hfill
        exact h.written_upto_fill c (hL ▸ hk)
      next => exact State.read_writeStep_ne_none c (h.pend_full x k hx hk)
    capture_full := by
      rw [hphase, hcfg, hcur]
      exact fun hp k hk => State.read_writeStep_ne_none c (h.capture_full hp k hk)
    j_lt := by rw [hphase, hcfg, hj]; exact h.j_lt
    j_le := by rw [hcfg, hj]; exact h.j_le
    e_lt := by rw [hphase, hcfg, he]; exact h.e_lt
    e_le := by rw [hcfg, he]; exact h.e_le
    cap_len := by rw [hcfg, hcap]; exact h.cap_len
    cap_code := by rw [hcfg, hcap]; exact h.cap_code
    cap_part := by rw [hphase, hcap, hj]; exact h.cap_part
    cap_full := by rw [hphase, hcap]; exact h.cap_full
    out_len := by rw [hcfg, hU, hF]; exact h.out_len
    out_full := by rw [hphase, hU, hF]; exact h.out_full
    hist_len := by rw [hcfg, hhist]; exact h.hist_len }

/-- R141: after the last element on to `COMPUTE`. -/
theorem State.storeCapture_phase_cases (s : State) (c : Code) :
    (s.j + 1 = s.cfg.bufLen ∧ (s.storeCapture c).phase = .compute) ∨
    (s.j + 1 ≠ s.cfg.bufLen ∧ (s.storeCapture c).phase = .capture) := by
  rw [State.storeCapture_phase]
  split
  next hL => exact .inl ⟨hL, rfl⟩
  next hL => exact .inr ⟨hL, rfl⟩

/-- With the entry at `J` captured, every entry of `CAP` up to it is. -/
theorem State.Inv.captured_upto_j (h : s.Inv) (hp : s.phase = .capture) (c : Code) {k : Nat} (hk : k < s.j + 1) :
    (s.cap.set s.j (some c))[k]? ≠ some none := by
  rw [List.getElem?_set]
  split
  · split <;> simp
  · exact h.cap_part hp k (by omega)

/-- After the last element, every entry of `CAP` is captured. -/
theorem State.Inv.captured_all (h : s.Inv) (hp : s.phase = .capture) (c : Code) (hL : s.j + 1 = s.cfg.bufLen) (k : Nat) :
    (s.cap.set s.j (some c))[k]? ≠ some none := by
  by_cases hk : k < s.j + 1
  · exact h.captured_upto_j hp c hk
  · have hlen : (s.cap.set s.j (some c)).length ≤ k := by
      rw [List.length_set, h.cap_len]
      omega
    simp [List.getElem?_eq_none hlen]

/-- A captured code was stored in a buffer, so it is a code of the port's width. -/
theorem State.Inv.captured_code (h : s.Inv) {c : Code} (hr : (s.buf s.cur).read s.j = some c) {k : Nat} {d : Code}
    (hd : (s.cap.set s.j (some c))[k]? = some (some d)) : codeFits s.cfg.codeWidth d = true := by
  rw [List.getElem?_set] at hd
  split at hd
  · split at hd <;> cases hd
    exact (h.mem_code _ _ _ hr).2
  · exact h.cap_code k d hd

theorem State.Inv.storeCapture (h : s.Inv) (hp : s.phase = .capture) {c : Code}
    (hr : (s.buf s.cur).read s.j = some c) : (s.storeCapture c).Inv := by
  have hj := h.j_lt hp
  obtain ⟨hL, hphase⟩ | ⟨hL, hphase⟩ := s.storeCapture_phase_cases c
  · exact { h with
      capture_full := fun hc => by cases hphase.symm.trans hc
      j_lt := fun hc => by cases hphase.symm.trans hc
      j_le := hj
      e_lt := fun he => by cases hphase.symm.trans he
      cap_len := List.length_set.trans h.cap_len
      cap_code := fun _ _ => h.captured_code hr
      cap_part := fun hc => by cases hphase.symm.trans hc
      cap_full := fun _ => h.captured_all hp c hL
      out_full := fun he => by cases hphase.symm.trans he }
  · exact { h with
      capture_full := fun _ => h.capture_full hp
      j_lt := fun _ => Nat.lt_of_le_of_ne hj hL
      j_le := hj
      e_lt := fun he => by cases hphase.symm.trans he
      cap_len := List.length_set.trans h.cap_len
      cap_code := fun _ _ => h.captured_code hr
      cap_part := fun _ _ hk => h.captured_upto_j hp c hk
      cap_full := fun hf => by rw [hphase] at hf; simp at hf
      out_full := fun he => by cases hphase.symm.trans he }

theorem State.scaledBlock_length (s : State) : s.scaledBlock.length = s.cfg.bufLen := by
  simp [State.scaledBlock]

theorem State.Inv.filterBlock (h : s.Inv) (hp : s.phase = .compute) (r : Bool) : (s.filterBlock r).Inv :=
  { h with
    capture_full := nofun
    j_lt := nofun
    e_lt := fun _ => h.bufLen_pos
    e_le := Nat.zero_le _
    cap_part := nofun
    cap_full := fun _ => h.cap_full (.inl hp)
    out_len := by simp [State.scaledBlock_length]
    out_full := fun _ k => by simp
    hist_len := firBlock_hist_length _ _ _ }

theorem phaseAfterLast_not_processing (x : Buf) : phaseAfterLast x ∉ [Phase.capture, .compute, .emit] := by
  cases x <;> decide

/-- R145: records are left to hand over, or the sequencer is done with the buffer. -/
theorem State.advanceEmit_phase_cases (s : State) :
    (s.e + 1 = s.cfg.bufLen ∧ s.advanceEmit.phase ∉ [Phase.capture, .compute, .emit]) ∨
    (s.e + 1 ≠ s.cfg.bufLen ∧ s.advanceEmit.phase = .emit) := by
  rw [State.advanceEmit_phase]
  split
  next hL => exact .inl ⟨hL, phaseAfterLast_not_processing s.cur⟩
  next hL => exact .inr ⟨hL, rfl⟩

theorem State.Inv.advanceEmit (h : s.Inv) (hp : s.phase = .emit) : s.advanceEmit.Inv := by
  have he := h.e_lt hp
  have hcapture : s.advanceEmit.phase ≠ .capture := by
    obtain ⟨-, hphase⟩ | ⟨-, hphase⟩ := s.advanceEmit_phase_cases
    · exact fun hc => hphase (by rw [hc]; decide)
    · rw [hphase]
      decide
  exact { h with
    capture_full := fun hc => absurd hc hcapture
    j_lt := fun hc => absurd hc hcapture
    e_lt := fun hem => by
      obtain ⟨-, hphase⟩ | ⟨hL, -⟩ := s.advanceEmit_phase_cases
      · exact absurd (by rw [hem]; decide) hphase
      · exact Nat.lt_of_le_of_ne he hL
    e_le := he
    cap_part := fun hc => absurd hc hcapture
    cap_full := fun _ => h.cap_full (.inr hp)
    out_full := fun _ => h.out_full hp }

/-! ### The invariant of R39 along a step -/

theorem Taken.inv (h : Taken s i t) (hs : s.Inv) : t.Inv := by
  cases h with
  | reset => exact hs.resetFields.record _
  | write c _ hc => exact hs.writeStep hc
  | refused => exact hs.refuse _
  | busRd => exact hs.record _
  | busWr => exact hs.record _
  | wrCtrl w => exact (hs.ctrlClear w).record _
  | start => exact (hs.goTo (by decide)).record _
  | checkA => exact (hs.check .A (by decide)).record _
  | checkB => exact (hs.check .B (by decide)).record _
  | unwritten => exact (hs.raise _).record _
  | capture c _ hp _ hr => exact (hs.storeCapture hp hr).record _
  | codeRange => exact (hs.raise _).record _
  | compute r _ hp => exact (hs.filterBlock hp r).record _
  | emit _ hp => exact (hs.advanceEmit hp).record _
  | scale => exact hs.answer _
  | fir => exact hs.answer _

/-- Every execution (R10), through the schedule or not, keeps the invariant. -/
theorem exec_keeps_inv (h : exec i s = .next t) (hs : s.Inv) : t.Inv := (exec_taken h).inv hs

theorem step_keeps_inv (h : step s = .next t) (hs : s.Inv) : t.Inv := by
  obtain ⟨i, u, hu, hx⟩ | ⟨-, ht⟩ | ⟨-, b, rfl⟩ := step_cases h
  · refine exec_keeps_inv hx ?_
    obtain rfl | rfl := hu
    exacts [hs, hs.popSched]
  · obtain rfl | rfl := ht
    exacts [hs, hs.popSched]
  · exact hs.popSched.refuse _

/-- R213: where the invariant holds, the only fault a step can raise is `CODE_RANGE`. -/
theorem exec_faults_of_inv (h : exec i s = .next t) (hs : s.Inv) :
    t.faults = s.faults ∨ ∃ k c, t.faults = s.faults.insert (.codeRange k c) := by
  obtain hf | ⟨-, hp, hj, hr, -⟩ | ⟨-, hf⟩ := (exec_taken h).faults_cases
  · exact .inl hf
  · exact absurd hr (hs.capture_full hp _ hj)
  · exact .inr hf

theorem step_faults_of_inv (h : step s = .next t) (hs : s.Inv) :
    t.faults = [] ∨ ∃ k c, t.faults = [.codeRange k c] := by
  have hf := faults_eq_nil_of_step h
  obtain ⟨i, u, hu, hx⟩ | ⟨-, ht⟩ | ⟨-, b, rfl⟩ := step_cases h
  · have huf : u.faults = [] := by obtain rfl | rfl := hu <;> exact hf
    have hui : u.Inv := by
      obtain rfl | rfl := hu
      exacts [hs, hs.popSched]
    simpa [huf] using exec_faults_of_inv hx hui
  · exact .inl (by obtain rfl | rfl := ht <;> exact hf)
  · exact .inl hf

/-! ### The register words (R41, R44) -/

theorem toNat_append_eq_add {m n : Nat} (x : BitVec m) (y : BitVec n) :
    (x ++ y).toNat = x.toNat * 2 ^ n + y.toNat := by
  rw [BitVec.toNat_append, ← Nat.shiftLeft_add_eq_or_of_lt y.isLt, Nat.shiftLeft_eq]

/-- A bit, read off the word as a number. -/
theorem getLsbD_of_toNat {n k : Nat} {w : BitVec n} {b : Bool} (h : w.toNat / 2 ^ k % 2 = b.toNat) : w.getLsbD k = b := by
  rw [BitVec.getLsbD, Nat.testBit_eq_decide_div_mod_eq, h]
  cases b <;> rfl

theorem Buf.bit_toNat (x : Buf) : x.bit.toNat = (decide (x = .B)).toNat := by
  cases x <;> rfl

/-- `STATUS` as a number: each field at its weight (R41). -/
theorem State.statusWord_toNat (s : State) :
    s.statusWord.toNat = s.fill % 2 ^ 16 * 2 ^ 16 + s.range.toNat * 2 ^ 9 + s.ovr.toNat * 2 ^ 8 + s.irq.toNat * 2 ^ 7 +
      s.phase.enc.toNat * 2 ^ 4 + s.cur.bit.toNat * 2 ^ 3 + s.active.bit.toNat * 2 ^ 2 + s.pendB.toNat * 2 +
      s.pendA.toNat := by
  simp only [State.statusWord, toNat_append_eq_add, BitVec.toNat_ofNat, BitVec.toNat_ofBool]
  omega

/-- `CFG` as a number: each field at its weight (R44). -/
theorem cfgWord_toNat (c : Config) :
    (cfgWord c).toNat = (c.codeWidth - 1) % 2 ^ 4 * 2 ^ 28 + c.taps % 2 ^ 12 * 2 ^ 16 + c.bufLen % 2 ^ 16 := by
  simp only [cfgWord, toNat_append_eq_add, BitVec.toNat_ofNat]
  omega

/-! ### The record port (R38, R145) -/

theorem State.recordU_of_recU {u : Val} (h : s.recU = some u) : s.recordU = u := by
  rw [State.recU, List.getD_eq_getElem?_getD, Option.getD_eq_iff] at h
  obtain h | ⟨-, h⟩ := h
  · simp only [State.recordU, h]
  · cases h

theorem State.recordF_of_recF {f : Val} (h : s.recF = some f) : s.recordF = f := by
  rw [State.recF, List.getD_eq_getElem?_getD, Option.getD_eq_iff] at h
  obtain h | ⟨-, h⟩ := h
  · simp only [State.recordF, h]
  · cases h

end Sys2Proof.Machine

/-! ### The statements -/

namespace Sys2Proof.Proofs

open Sys2Proof.Machine

/-- Settles O48: the operation each taken step is made of keeps the invariant. -/
theorem everyStepKeepsTheInvariant : Obligations.EveryStepKeepsTheInvariant :=
  fun _ _ hs h => step_keeps_inv h hs

/-- Settles O12: all but `RESET` and `WRITE` keep the buffers, and a `WRITE` only changes what it reads at (ACTIVE, FILL). -/
theorem onlyWriteChangesABuffer : Obligations.OnlyWriteChangesABuffer := by
  intro s t i h hr x k hne
  by_cases hw : ∃ c, i = .write c
  · obtain ⟨c, rfl⟩ := hw
    refine ⟨⟨c, rfl⟩, ?_⟩
    obtain ⟨-, ⟨-, -, rfl⟩ | ⟨-, rfl⟩⟩ := exec_write_next.1 h
    · by_contra hother
      exact hne (by rw [State.read_writeStep, if_neg hother])
    · exact absurd (by rw [State.buf_refuse]) hne
  · obtain ⟨hbuf, -⟩ := (exec_taken h).engine_eq hr (not_exists.1 hw)
    exact absurd (by rw [hbuf]) hne

/-- Settles O20: a flag is kept, set by the fill of its buffer, or cleared by its check. -/
theorem pendingFlagsHaveOneSetterAndOneClearer : Obligations.PendingFlagsHaveOneSetterAndOneClearer := by
  intro s t i h hr
  have hflag := fun x => flag_change ((exec_taken h).pend_cases hr x)
  exact ⟨fun x => (hflag x).1, (hflag .A).2, (hflag .B).2⟩

/-- Settles O25: neither step asks what its storage holds; `COMPUTE` filters or raises, and `EMIT` needs only `E` in range. -/
theorem computeAndEmitCompleteOnAnyStorage : Obligations.ComputeAndEmitCompleteOnAnyStorage := by
  intro s hf
  refine ⟨fun hp => ⟨_, exec_compute_next.2 ⟨hf, hp, rfl⟩, ?_⟩, fun hp he =>
    ⟨_, s.recordU, s.recordF, exec_emit_next.2 ⟨hf, hp, he, rfl⟩, rfl, rfl⟩⟩
  obtain ⟨k, -, -, hraise⟩ | ⟨r, hfilter, -⟩ := s.computeStep_cases
  · refine .inr ⟨k, s.capCode k, ?_⟩
    rw [hraise, State.raise, State.record, hf]
    rfl
  · rw [hfilter]
    exact .inl (by simp [State.scaledBlock_length, hf])

/-- Settles O36: every field, bit or wider, is cut out of the word as a number, in which each stands at its weight. -/
theorem statusFieldsAreInTheirPlaces : Obligations.StatusFieldsAreInTheirPlaces := by
  intro s w
  have hw : w.toNat = _ := s.statusWord_toNat
  have hphase := s.phase.enc.isLt
  have hcur := s.cur.bit.isLt
  have hactive := s.active.bit.isLt
  have hrange := s.range.toNat_lt
  have hovr := s.ovr.toNat_lt
  have hirq := s.irq.toNat_lt
  have hpendB := s.pendB.toNat_lt
  have hpendA := s.pendA.toNat_lt
  have hcurBit := s.cur.bit_toNat
  have hactiveBit := s.active.bit_toNat
  refine ⟨getLsbD_of_toNat (by omega), getLsbD_of_toNat (by omega), getLsbD_of_toNat (by omega),
    getLsbD_of_toNat (by omega), ?_, getLsbD_of_toNat (b := s.irq) (by omega), getLsbD_of_toNat (by omega),
    getLsbD_of_toNat (by omega), by omega, fun hfill => by omega⟩
  have hfield : w.toNat / 2 ^ 4 % 2 ^ 3 = s.phase.enc.toNat := by omega
  rw [hfield]
  cases s.phase <;> rfl

/-- Settles O37: in a valid configuration each parameter fits its field. -/
theorem cfgFieldsAreInTheirPlaces : Obligations.CfgFieldsAreInTheirPlaces := by
  refine ⟨fun c hc => ?_, by decide⟩
  obtain ⟨hL, hT, -, hN, -⟩ := (Config.valid_iff c).1 hc
  rw [cfgWord_toNat]
  omega

/-- Settles O43: every step of an agent, and `step`, is guarded by FAULTS being empty. -/
theorem aFaultedBlockTakesNoStep : Obligations.AFaultedBlockTakesNoStep := by
  refine fun s hf => ⟨step_faulted hf, fun i hscale hfir => exec_faulted hf ?_⟩
  cases i with
  | scale c => exact absurd rfl (hscale c)
  | fir h v => exact absurd rfl (hfir h v)
  | _ => rfl

/-- Settles O44: a step leaves FAULTS, or inserts the one fault it raises; and it only appends to what was refused. -/
theorem faultAndRefusalRecordsArePermanent : Obligations.FaultAndRefusalRecordsArePermanent := by
  intro s t i h
  obtain ⟨rs, hrs⟩ := (exec_taken h).refusals_append
  have hrefused : s.isRefused = true → t.isRefused = true := by
    rw [State.isRefused_iff, State.isRefused_iff, hrs]
    exact fun hs => List.append_ne_nil_of_left_ne_nil hs rs
  obtain hf | ⟨rfl, -, -, -, hf⟩ | ⟨rfl, k, c, hf⟩ := (exec_taken h).faults_cases
  · exact ⟨by simp [hf], hrefused, fun hne => absurd hf hne⟩
  · exact ⟨fun f hm => hf ▸ List.mem_insert_of_mem hm, hrefused, fun _ => .inl rfl⟩
  · exact ⟨fun f hm => hf ▸ List.mem_insert_of_mem hm, hrefused, fun _ => .inr rfl⟩

/-- Settles O46: a `WRITE` swaps exactly where it fills, and no other step but `RESET` writes `SEQ` or `ACTIVE`. -/
theorem onlyFillsCountAndSwap : Obligations.OnlyFillsCountAndSwap := by
  intro s t i h hr
  by_cases hw : ∃ c, i = .write c
  · obtain ⟨c, rfl⟩ := hw
    rw [fills_write_iff]
    obtain ⟨-, ⟨hc, -, rfl⟩ | ⟨hc, rfl⟩⟩ := exec_write_next.1 h
    · obtain ⟨hL, -, hseq, hact, -⟩ | ⟨hL, -, hseq, hact, -⟩ := s.writeStep_swap c <;> simp [hc, hL, hseq, hact]
    · simp [hc]
  · have hnot := not_exists.1 hw
    obtain ⟨-, hact, -, hseq⟩ := (exec_taken h).engine_eq hr hnot
    exact ⟨fun hfill => absurd hfill (not_fills_of_not_write hnot), fun _ => ⟨hseq, hact⟩⟩

/-- Settles O47: each flag is kept, set by its setter, or cleared by its bit of a `CTRL` write. -/
theorem stickyFlagsHaveTheirSettersAndClearers : Obligations.StickyFlagsHaveTheirSettersAndClearers := by
  intro s t i h hr
  obtain ⟨hovrSet, hovrClear⟩ := flag_change ((exec_taken h).ovr_cases hr)
  obtain ⟨hrangeSet, hrangeClear⟩ := flag_change ((exec_taken h).range_cases hr)
  exact ⟨hovrSet, hovrClear, hrangeSet, hrangeClear⟩

/-- Settles O49: `CAPTURE` finds its buffer written, so the only fault of the next state can be `CODE_RANGE`. -/
theorem unwrittenReadIsUnreachable : Obligations.UnwrittenReadIsUnreachable := by
  intro s t x k hs h
  obtain hf | ⟨m, c, hf⟩ := step_faults_of_inv h hs <;> simp [hf]

/-- Settles O10: the reference configuration is one of the valid ones. -/
theorem resetMeetsTheInvariant : Obligations.ResetMeetsTheInvariant :=
  ⟨fun _ => State.resetOf_inv, State.resetOf_inv Config.valid_reference⟩

/-- Settles O31: `EMIT` hands over the entries `REC_U` and `REC_F` show. -/
theorem outputsAreFunctionsOfTheState : Obligations.OutputsAreFunctionsOfTheState := by
  intro s
  refine ⟨by simp [State.irq], by simp [State.recValid], fun o ho => ?_, fun o ho => ?_, fun u f hu hrf hf hp he => ?_⟩
  · simp [State.recU, ho]
  · simp [State.recF, ho]
  · refine ⟨_, exec_emit_next.2 ⟨hf, hp, he, rfl⟩, ?_⟩
    rw [State.emitStep, State.record_history, State.recordU_of_recU hu, State.recordF_of_recF hrf]
    rfl

end Sys2Proof.Proofs
end

section
/-! PROOFS. The family `20_memory.md`. First the value of a byte lane as a number (R51), then the statement O60. -/

namespace Sys2Proof.Machine

/-- R51: lane `k` is digit `k` of the word written in base `2 ^ 8`. -/
theorem laneByte_toNat (w : Word) (k : Nat) : (laneByte w k).toNat = w.toNat / 2 ^ (8 * k) % 2 ^ 8 := by
  rw [laneByte, BitVec.extractLsb'_toNat, Nat.shiftRight_eq_div_pow]

end Sys2Proof.Machine

/-! ### The statement -/

namespace Sys2Proof.Proofs

open Sys2Proof.Machine

/-- Settles O60: a word is below `2 ^ 32`, so its four lowest digits in base `2 ^ 8` are all of it. -/
theorem byteLanesAreLittleEndian : Obligations.ByteLanesAreLittleEndian := by
  intro w
  have hw := w.isLt
  simp only [laneByte_toNat]
  omega

end Sys2Proof.Proofs
end

section
/-! PROOFS. The family `30_encoding.md`. First the layer these proofs need: a port's bundle as a number (R71, R73), the round
trip from the instruction and from the transaction, and the step that refuses a sample (R214). Then the statements O3, O1, O4,
O7 and O2. -/

namespace Sys2Proof.Laws

open Sys2Proof.Machine

/-! ### The sample bundle as a number (R71) -/

theorem sampleValid_iff {b : BitVec 17} : sampleValid b = true ↔ b.toNat / 2 ^ 16 = 1 := by
  have hb := b.isLt
  rw [sampleValid, BitVec.getLsbD, Nat.testBit_eq_decide_div_mod_eq, decide_eq_true_iff]
  omega

theorem sampleCode_toNat (b : BitVec 17) : (sampleCode b).toNat = b.toNat % 2 ^ 16 := by
  rw [sampleCode, BitVec.extractLsb'_toNat, Nat.shiftRight_zero]

theorem codeFits_sampleCode_iff {n : Nat} {b : BitVec 17} :
    codeFits n (sampleCode b) = true ↔ b.toNat % 2 ^ 16 < 2 ^ n := by
  rw [codeFits, sampleCode_toNat, decide_eq_true_iff]

/-- `VALID` and `CODE` are all of a sample bundle. -/
theorem sampleBundle_sampleCode {b : BitVec 17} (hv : sampleValid b = true) : sampleBundle (sampleCode b) = b := by
  rw [sampleValid_iff] at hv
  apply BitVec.eq_of_toNat_eq
  rw [sampleBundle, toNat_append_eq_add, sampleCode_toNat, BitVec.toNat_ofNat]
  omega

theorem decodeSample_noTransaction {n : Nat} {b : BitVec 17} (hv : b.toNat / 2 ^ 16 = 0) :
    decodeSample n b = .noTransaction := by
  rw [decodeSample, if_neg (by rw [sampleValid_iff]; omega)]

theorem decodeSample_write {n : Nat} {b : BitVec 17} (hv : b.toNat / 2 ^ 16 = 1) (hc : b.toNat % 2 ^ 16 < 2 ^ n) :
    decodeSample n b = .instr (.write (sampleCode b)) := by
  rw [decodeSample, if_pos (sampleValid_iff.2 hv), if_pos (codeFits_sampleCode_iff.2 hc)]

theorem decodeSample_reservedBits {n : Nat} {b : BitVec 17} (hv : b.toNat / 2 ^ 16 = 1)
    (hc : ¬ b.toNat % 2 ^ 16 < 2 ^ n) : decodeSample n b = .sampleReservedBits b := by
  rw [decodeSample, if_pos (sampleValid_iff.2 hv), if_neg (mt codeFits_sampleCode_iff.1 hc)]

/-! ### The bus bundle and its key as numbers (R73, R79) -/

theorem busKey_toNat (we : Bool) (a : BitVec 8) : (busKey we a).toNat = we.toNat * 2 ^ 8 + a.toNat := by
  rw [busKey, toNat_append_eq_add, BitVec.toNat_ofBool]

theorem busBundle_toNat (we : Bool) (a : BitVec 8) (w : Word) :
    (busBundle we a w).toNat = (busKey we a).toNat * 2 ^ 32 + w.toNat := by
  rw [busBundle, toNat_append_eq_add, busKey]

/-- `WE` and `ADDR` of a bundle, cut out of its key `K = bundle[40:32]`. -/
theorem busKey_of_bundle (b : BitVec 41) :
    (busKey (decide (0x100 ≤ b.toNat / 2 ^ 32)) (BitVec.ofNat 8 (b.toNat / 2 ^ 32))).toNat = b.toNat / 2 ^ 32 := by
  have hb := b.isLt
  rw [busKey_toNat, BitVec.toNat_ofNat]
  by_cases h : 0x100 ≤ b.toNat / 2 ^ 32
  · rw [decide_eq_true h, Bool.toNat_true]
    omega
  · rw [decide_eq_false h, Bool.toNat_false]
    omega

/-- The key and the low word are all of a bus bundle. -/
theorem eq_busBundle_of_key {b : BitVec 41} {we : Bool} {a : BitVec 8} (hK : b.toNat / 2 ^ 32 = (busKey we a).toNat) :
    b = busBundle we a (BitVec.ofNat 32 b.toNat) := by
  apply BitVec.eq_of_toNat_eq
  rw [busBundle_toNat, BitVec.toNat_ofNat]
  omega

theorem exists_eq_busBundle (b : BitVec 41) : ∃ we a w, b = busBundle we a w :=
  ⟨_, _, _, eq_busBundle_of_key (busKey_of_bundle b).symm⟩

theorem mem_mappedKeys_iff {k : BitVec 9} :
    k ∈ mappedKeys ↔ k.toNat ∈ [0x000, 0x004, 0x008, 0x00C, 0x100, 0x104, 0x108, 0x10C] :=
  (List.mem_map_of_injective (f := BitVec.toNat) (l := mappedKeys) fun _ _ => BitVec.eq_of_toNat_eq).symm

theorem wellFormed_busErr {c : Config} {we : Bool} {a : BitVec 8} {w : Word} (h : busKey we a ∉ mappedKeys) :
    wellFormed c (.busErr we a w) = true := by
  simpa [wellFormed] using h

/-! ### The round trip from the instruction -/

/-- The family `RoundTrip`, for every instruction. -/
theorem decode_encode (i : Instr) : RoundTrip.Statement i := by
  cases i with
  | reset => exact RoundTrip.reset
  | write code => exact RoundTrip.write code
  | rdStatus w => exact RoundTrip.rdStatus w
  | rdSeq w => exact RoundTrip.rdSeq w
  | rdCtrl w => exact RoundTrip.rdCtrl w
  | rdCfg w => exact RoundTrip.rdCfg w
  | wrStatus w => exact RoundTrip.wrStatus w
  | wrSeq w => exact RoundTrip.wrSeq w
  | wrCtrl w => exact RoundTrip.wrCtrl w
  | wrCfg w => exact RoundTrip.wrCfg w
  | busErr we a w => exact RoundTrip.busErr we a w
  | start => exact RoundTrip.start
  | checkA => exact RoundTrip.checkA
  | checkB => exact RoundTrip.checkB
  | capture => exact RoundTrip.capture
  | compute => exact RoundTrip.compute
  | emit => exact RoundTrip.emit
  | scale code => exact RoundTrip.scale code
  | fir h v => exact RoundTrip.fir h v

theorem encode_eq_none_iff (i : Instr) : encode i = none ↔ (∃ code, i = .scale code) ∨ (∃ h v, i = .fir h v) := by
  cases i with
  | scale code => exact ⟨fun _ => .inl ⟨code, rfl⟩, fun _ => rfl⟩
  | fir h v => exact ⟨fun _ => .inr ⟨h, v, rfl⟩, fun _ => rfl⟩
  | _ => simp [encode, encodeBus]

/-- A row of R79 is selected by its key alone: the bundle is the encoding of the row's instruction. -/
theorem decode_bus_of_key {n : Nat} {b : BitVec 41} {we : Bool} {a : BitVec 8} {i : Instr}
    (he : encode i = encodeBus we a (BitVec.ofNat 32 b.toNat)) (hwf : ∀ c, wellFormed c i = true)
    (hK : b.toNat / 2 ^ 32 = (busKey we a).toNat) : decode n (.bus b) = .instr i := by
  rw [encodeBus, ← eq_busBundle_of_key hK] at he
  exact decode_encode i { Config.reference with codeWidth := n } _ (hwf _) he

/-! ### The round trip from the transaction -/

/-- The encoding of a bus row depends on `WE` and `ADDR` through the key only. -/
theorem encodeBus_eq_of_key {we we' : Bool} {a a' : BitVec 8} (w : Word) (h : busKey we a = busKey we' a') :
    encodeBus we' a' w = encodeBus we a w := by
  rw [encodeBus, encodeBus, busBundle, busBundle, ← busKey, ← busKey, h]

theorem encode_decodeBus_bundle (c : Config) (we : Bool) (a : BitVec 8) (w : Word) :
    wellFormed c (decodeBus (busBundle we a w)) = true ∧ encode (decodeBus (busBundle we a w)) = encodeBus we a w := by
  rw [decodeBus_bundle]
  split_ifs with hRdStatus hRdSeq hRdCtrl hRdCfg hWrStatus hWrSeq hWrCtrl hWrCfg
  · exact ⟨rfl, encodeBus_eq_of_key w hRdStatus⟩
  · exact ⟨rfl, encodeBus_eq_of_key w hRdSeq⟩
  · exact ⟨rfl, encodeBus_eq_of_key w hRdCtrl⟩
  · exact ⟨rfl, encodeBus_eq_of_key w hRdCfg⟩
  · exact ⟨rfl, encodeBus_eq_of_key w hWrStatus⟩
  · exact ⟨rfl, encodeBus_eq_of_key w hWrSeq⟩
  · exact ⟨rfl, encodeBus_eq_of_key w hWrCtrl⟩
  · exact ⟨rfl, encodeBus_eq_of_key w hWrCfg⟩
  · refine ⟨wellFormed_busErr ?_, rfl⟩
    simp [mappedKeys, *]

theorem encode_of_decodeSample {c : Config} {b : BitVec 17} {i : Instr} (h : decodeSample c.codeWidth b = .instr i) :
    wellFormed c i = true ∧ encode i = some (.sample b) := by
  rw [decodeSample] at h
  split_ifs at h with hvalid hfits
  cases h
  exact ⟨hfits, by rw [encode, sampleBundle_sampleCode hvalid]⟩

theorem encode_of_decodeEvent {c : Config} {k : BitVec 4} {i : Instr} (h : decodeEvent k = .instr i) :
    wellFormed c i = true ∧ encode i = some (.event k) := by
  rw [decodeEvent] at h
  split_ifs at h with hk hk hk hk hk hk
  all_goals
    cases h
    exact ⟨rfl, by rw [hk, encode]⟩

/-- By the port: each encoder puts its decoder's fields together again. -/
theorem encode_of_decode {c : Config} {t : Transaction} {i : Instr} (h : decode c.codeWidth t = .instr i) :
    wellFormed c i = true ∧ encode i = some t := by
  cases t with
  | rst bit =>
    rw [decode] at h
    split_ifs at h with hbit
    cases h
    exact ⟨rfl, by rw [hbit, encode]⟩
  | sample b => exact encode_of_decodeSample h
  | bus b =>
    obtain ⟨we, a, w, rfl⟩ := exists_eq_busBundle b
    cases h
    exact encode_decodeBus_bundle c we a w
  | event k => exact encode_of_decodeEvent h

end Sys2Proof.Laws

namespace Sys2Proof.Machine

theorem step_of_sampleReservedBits {s : State} {t : Transaction} {rest : List Transaction} {b : BitVec 17}
    (hf : s.faults = []) (hs : s.sched = t :: rest) (hd : decode s.cfg.codeWidth t = .sampleReservedBits b) :
    step s = .next (s.popSched.refuse (.sampleReservedBits b)) := by
  have hstep : step s = refuseSample b s.popSched := by simp only [step, hs, hd]
  rw [hstep]
  exact whenRunning_eq s.popSched _ hf

/-- R214: a refusal is no change of the block. -/
theorem State.refuse_same (s : State) (r : RefusalRecord) :
    SameEngine s (s.refuse r) ∧ SameSticky s (s.refuse r) ∧ SameSequencer s (s.refuse r) ∧ SameStorage s (s.refuse r) := by
  simp [SameEngine, SameSticky, SameSequencer, SameStorage]

end Sys2Proof.Machine

/-! ### The statements -/

namespace Sys2Proof.Proofs

open Sys2Proof.Machine Sys2Proof.Laws

/-- Settles O3: each constructor's round trip, and which constructors the encoder answers `none` for. -/
theorem decodeReadsBackEveryEncoding : Obligations.DecodeReadsBackEveryEncoding :=
  fun c i => ⟨decode_encode i c, encode_eq_none_iff i⟩

/-- Settles O1: a bus bundle is the encoding of the row its key selects, and a key of no other row is one of `BUS_ERR`. -/
theorem portDecodeFollowsTheTable : Obligations.PortDecodeFollowsTheTable := by
  refine ⟨fun n b => ?_, fun n b => ⟨decodeSample_noTransaction, fun hv hc => ?_, decodeSample_reservedBits⟩,
    fun n => ⟨rfl, rfl, rfl⟩⟩
  · refine ⟨?_, ?_, ?_, ?_, ?_, ?_, ?_, ?_, fun hK => ?_⟩
    case refine_9 =>
      rw [← busKey_of_bundle b, ← mem_mappedKeys_iff] at hK
      exact decode_bus_of_key rfl (fun _ => wellFormed_busErr hK) (busKey_of_bundle b).symm
    all_goals exact fun hK => decode_bus_of_key rfl (fun _ => rfl) hK
  · rw [← sampleCode_toNat, BitVec.ofNat_toNat, BitVec.setWidth_eq]
    exact decodeSample_write hv hc

/-- Settles O4: for each port, the encoder puts the fields the decoder read together again. -/
theorem everyDecodedTransactionEncodesBack : Obligations.EveryDecodedTransactionEncodesBack :=
  fun _ _ _ => encode_of_decode

/-- Settles O7: the step takes the bundle off the schedule and refuses it, and a refusal writes `refusals` alone. -/
theorem reservedSampleBitsAreRefused : Obligations.ReservedSampleBitsAreRefused := by
  intro s b rest hf hs hv hc
  refine ⟨_, step_of_sampleReservedBits hf hs (decodeSample_reservedBits hv hc), ?_⟩
  rw [State.popSched_of_cons hs]
  obtain ⟨hengine, hsticky, hsequencer, hstorage⟩ :=
    { s with sched := rest }.refuse_same (.sampleReservedBits b)
  exact ⟨State.isRefused_iff.2 (by simp), rfl, hengine, hsticky, hsequencer, hstorage, rfl, rfl, rfl, rfl, rfl⟩

/-- Settles O2: each word is a closed bit pattern, and the decoder is run on it. -/
theorem wordsDecodeAsTheFormatsSay : Obligations.WordsDecodeAsTheFormatsSay := by
  unfold Obligations.WordsDecodeAsTheFormatsSay
  decide

end Sys2Proof.Proofs
end

section
/-! PROOFS. The family `40_engine.md`. First the layer these proofs need: what a step adds to the history, what the Engine has
counted since a reset as one invariant of a state and of the history since (R103, R106, R107), and its induction over a run
without `RESET`. Then the statements O14, O15, O11 and O13. -/

namespace Sys2Proof.Machine

variable {s t : State} {i : Instr} {h : List Event}

/-! ### What a step adds to the history (R77) -/

/-- A step that is no `WRITE` adds one entry, which is none of a `WRITE`, or, as a function row, none at all. -/
theorem Taken.history_cases (ht : Taken s i t) (hw : ∀ c, i ≠ .write c) :
    t.history = s.history ∨ ∃ e, t.history = e :: s.history ∧ ∀ c r, e ≠ .write c r := by
  cases ht with
  | write c => exact absurd rfl (hw c)
  | refused c => exact absurd rfl (hw c)
  | scale => exact .inl rfl
  | fir => exact .inl rfl
  | checkA => exact .inr ⟨.checkA, by simp [State.check_fields], nofun⟩
  | checkB => exact .inr ⟨.checkB, by simp [State.check_fields], nofun⟩
  | _ => exact .inr ⟨_, rfl, nofun⟩

/-- A `WRITE` that fills nothing is no ready event. -/
theorem readyEvents_store (c : Code) (h : List Event) : readyEvents (.write c .none :: h) = readyEvents h := rfl

/-- To the Engine a step is the whole `WRITE` or leaves everything it counts by, and the history shows which. -/
theorem Taken.engine_cases (ht : Taken s i t) (hr : i ≠ .reset) :
    (∃ c, s.fill < s.cfg.bufLen ∧ t = s.writeStep c) ∨
    ((t.active = s.active ∧ t.fill = s.fill ∧ t.seq = s.seq) ∧
      (t.history = s.history ∨ ∃ e, t.history = e :: s.history ∧ ∀ c r, e ≠ .write c r)) := by
  by_cases hw : ∃ c, i = .write c
  · obtain ⟨c, rfl⟩ := hw
    cases ht with
    | write _ _ _ hl => exact .inl ⟨c, hl, rfl⟩
    | refused => exact .inr ⟨⟨rfl, rfl, rfl⟩, .inl rfl⟩
    | busRd _ _ _ _ hi => simp at hi
    | busWr _ _ _ _ hi => simp at hi
  · have hnot := not_exists.1 hw
    obtain ⟨-, hactive, hfill, hseq⟩ := ht.engine_eq hr hnot
    exact .inr ⟨⟨hactive, hfill, hseq⟩, ht.history_cases hnot⟩

/-! ### What the Engine has counted since a reset -/

/-- State `s` is what the Engine has counted since a reset, where `h` is the history since, with one ready event per fill. It
asks nothing of the configuration: with `L` = 0 no `WRITE` completes. -/
structure State.CountsSince (s : State) (h : List Event) : Prop where
  /-- R106. -/
  alternates : Alternates (readyEvents h) s.active
  /-- R107: `L` of the `WRITE`s belong to each fill and `FILL` of them to the one to come. -/
  writes : writeCount h = (readyEvents h).length * s.cfg.bufLen + s.fill
  /-- R24. -/
  fill_lt : 0 < s.cfg.bufLen → s.fill < s.cfg.bufLen
  /-- R26, R107. -/
  seq : s.seq.toNat = (readyEvents h).length % 2 ^ 32
  /-- R101: right after a fill no `WRITE` belongs to the one to come. -/
  fill_zero : ∀ d ev h', h = .write d ev :: h' → ev ≠ .none → s.fill = 0

theorem FreshlyReset.countsSince (hs : FreshlyReset s) : s.CountsSince [] := by
  obtain ⟨-, hactive, hfill, -, hseq, -⟩ := hs.fields
  exact
  { alternates := hactive
    writes := by simp [hfill, writeCount, readyEvents]
    fill_lt := by rw [hfill]; exact id
    seq := by rw [hseq]; rfl
    fill_zero := nofun }

/-- One more `WRITE`: the fill is one more ready event, of the buffer that was due, and any other counts in `FILL`. -/
theorem State.CountsSince.writeStep (hs : s.CountsSince h) (c : Code) (hl : s.fill < s.cfg.bufLen) :
    ∃ e, (s.writeStep c).history = e :: s.history ∧ (s.writeStep c).CountsSince (e :: h) := by
  have hwrites := hs.writes
  obtain ⟨hL, hfill, hseq, hactive, hhist⟩ | ⟨hL, hfill, hseq, hactive, hhist⟩ := s.writeStep_swap c
  · refine ⟨_, hhist, ?_⟩
    exact
    { alternates := by rw [readyEvents_fill, hactive]; exact ⟨rfl, hs.alternates⟩
      writes := by
        rw [readyEvents_fill, hfill, State.writeStep_cfg, List.length_cons, Nat.succ_mul, writeCount]
        omega
      fill_lt := by rw [hfill]; exact id
      seq := by
        rw [readyEvents_fill, hseq, List.length_cons, BitVec.toNat_add, BitVec.toNat_ofNat]
        have hseqNat := hs.seq
        omega
      fill_zero := fun _ _ _ _ _ => hfill }
  · refine ⟨_, hhist, ?_⟩
    exact
    { alternates := by rw [hactive]; exact hs.alternates
      writes := by
        rw [readyEvents_store, hfill, State.writeStep_cfg, writeCount]
        omega
      fill_lt := by rw [hfill, State.writeStep_cfg]; omega
      seq := by rw [hseq]; exact hs.seq
      fill_zero := fun _ _ _ heq hne => by cases heq; exact absurd rfl hne }

/-- The counts see of the history its `WRITE`s only, and of the state the configuration, `ACTIVE`, `FILL` and `SEQ`. -/
theorem State.CountsSince.of_same_writes {h' : List Event} (hs : s.CountsSince h) (hcfg : t.cfg = s.cfg)
    (hengine : t.active = s.active ∧ t.fill = s.fill ∧ t.seq = s.seq)
    (hevents : readyEvents h' = readyEvents h ∧ writeCount h' = writeCount h)
    (hlatest : ∀ d ev r, h' = .write d ev :: r → h = h') : t.CountsSince h' := by
  obtain ⟨hactive, hfill, hseq⟩ := hengine
  obtain ⟨hready, hcount⟩ := hevents
  exact
  { alternates := by rw [hready, hactive]; exact hs.alternates
    writes := by rw [hready, hcount, hcfg, hfill]; exact hs.writes
    fill_lt := by rw [hcfg, hfill]; exact hs.fill_lt
    seq := by rw [hready, hseq]; exact hs.seq
    fill_zero := fun d ev r heq => by
      rw [hfill]
      exact hs.fill_zero d ev r ((hlatest d ev r heq).trans heq) }

/-- The counts go on over any step but `RESET`, of any agent. -/
theorem exec_keeps_countsSince (hx : exec i s = .next t) (hr : i ≠ .reset) (hs : s.CountsSince h) :
    ∃ es, t.history = es ++ s.history ∧ t.CountsSince (es ++ h) := by
  have hcfg := exec_keeps_cfg hx
  obtain ⟨c, hl, rfl⟩ | ⟨hengine, hhist | ⟨e, hhist, he⟩⟩ := (exec_taken hx).engine_cases hr
  · obtain ⟨e, hhist, hcounts⟩ := hs.writeStep c hl
    exact ⟨[e], hhist, hcounts⟩
  · exact ⟨[], hhist, hs.of_same_writes hcfg hengine ⟨rfl, rfl⟩ fun _ _ _ _ => rfl⟩
  · exact ⟨[e], hhist, hs.of_same_writes hcfg hengine (events_of_not_write he h) fun d ev r heq =>
      absurd (List.cons.inj heq).1 (he d ev)⟩

/-- What a step of the run keeps of a state and of the history up to it, the whole run keeps. -/
theorem RunsTo.keeps_since {P : State → Instr → Prop} {Q : State → List Event → Prop}
    (hstep : ∀ {u v : State} {i : Instr} {h : List Event}, P u i → exec i u = .next v → Q u h →
      ∃ es, v.history = es ++ u.history ∧ Q v (es ++ h)) :
    ∀ {is : List Instr} {s t : State} {h : List Event}, RunsTo P is s t → Q s h →
      ∃ es, t.history = es ++ s.history ∧ Q t (es ++ h)
  | [], _, _, _, rfl, hq => ⟨[], rfl, hq⟩
  | _ :: _, _, _, _, ⟨hp, _, hx, hrun⟩, hq => by
    obtain ⟨es, hhist, hq'⟩ := hstep hp hx hq
    obtain ⟨es', hhist', hq''⟩ := RunsTo.keeps_since hstep hrun hq'
    exact ⟨es' ++ es, by rw [hhist', hhist, List.append_assoc], by rwa [List.append_assoc]⟩

theorem RunsTo.keeps_cfg {P : State → Instr → Prop} :
    ∀ {is : List Instr} {s t : State}, RunsTo P is s t → t.cfg = s.cfg
  | [], _, _, rfl => rfl
  | _ :: _, _, _, ⟨_, _, hx, hrun⟩ => hrun.keeps_cfg.trans (exec_keeps_cfg hx)

/-- Every state of a run without `RESET` from a reset is counted by the history since. -/
theorem RunsTo.countsSince {is : List Instr} (hs : FreshlyReset s) (hrun : RunsTo NotReset is s t) :
    ∃ h, t.history = h ++ s.history ∧ t.CountsSince h := by
  obtain ⟨h, hhist, hcounts⟩ := hrun.keeps_since (fun hr hx hq => exec_keeps_countsSince hx hr hq) hs.countsSince
  exact ⟨h, hhist, h.append_nil ▸ hcounts⟩

/-- R107: the latest of the fills was of A exactly if their number is odd. -/
theorem Alternates.latest_parity {x y : Buf} {xs : List Buf} (ha : Alternates (x :: xs) y) :
    x = .A ↔ (x :: xs).length % 2 = 1 := by
  obtain ⟨-, hx⟩ := ha
  rw [hx.parity, List.length_cons]
  omega

/-! ### The effects of a `WRITE` -/

theorem readyOf_eq_ite (x : Buf) : readyOf x = if x = .A then .readyA else .readyB := by cases x <;> rfl

theorem State.ovr_writeStep_iff (s : State) (c : Code) : (s.writeStep c).ovr = true ↔ s.ovr = true ∨ Corrupts s := by
  rw [(s.writeStep_fields c).1, Bool.or_eq_true, State.corrupt_iff, Corrupts]

/-- A plain store leaves both pending flags. -/
theorem State.pend_writeStep_of_not_fill (c : Code) (hL : s.fill + 1 ≠ s.cfg.bufLen) (x : Buf) :
    (s.writeStep c).pend x = s.pend x := by
  rw [State.pend_writeStep, if_neg fun hx => hL hx.2]

/-- R101: a `WRITE` leaves the sequencer, the Buffer Processor's storage, the parameters and the records. -/
theorem State.writeStep_same (s : State) (c : Code) :
    SameSequencer s (s.writeStep c) ∧ SameStorage s (s.writeStep c) ∧ SameRest s (s.writeStep c) := by
  simp [SameSequencer, SameStorage, SameRest, State.writeStep_fields]

end Sys2Proof.Machine

/-! ### The statements -/

namespace Sys2Proof.Proofs

open Sys2Proof.Machine

/-- Settles O14: a clause of what the Engine has counted since the reset. -/
theorem readyEventsAlternateFromReset : Obligations.ReadyEventsAlternateFromReset := by
  intro s0 s t is hreset hrun
  obtain ⟨h, hhist, hcounts⟩ := hrun.countsSince (.inl ⟨s0, hreset⟩)
  exact ⟨h, hhist, hcounts.alternates⟩

/-- Settles O15: in a valid configuration `L` is positive, and the parity of the fills is that of an alternating history. -/
theorem fillsComeEveryLWrites : Obligations.FillsComeEveryLWrites := by
  intro s t is hs hvalid hrun
  obtain ⟨h, hhist, hcounts⟩ := hrun.countsSince hs
  have hcfg := hrun.keeps_cfg
  obtain ⟨⟨hpos, -⟩, -⟩ := (Config.valid_iff s.cfg).1 hvalid
  have hwrites := hcounts.writes
  have hlt := hcounts.fill_lt
  rw [hcfg] at hwrites hlt
  refine ⟨h, hhist, hwrites, hlt hpos, fun d ev h' heq hev => ?_, hcounts.seq, fun x xs hx => ?_⟩
  · rw [hwrites, hcounts.fill_zero d ev h' heq hev, Nat.add_zero]
  · have halternates := hcounts.alternates
    rw [hx] at halternates ⊢
    exact halternates.latest_parity

/-- Settles O11: `FILL` at `L - 1` is the fill, and the laws of the write step say what it and a plain store leave. -/
theorem writeStoresAndSwapsOnFill : Obligations.WriteStoresAndSwapsOnFill := by
  intro s c hf hc hl
  obtain ⟨hsequencer, hstorage, hrest⟩ := s.writeStep_same c
  refine ⟨s.writeStep c, exec_write_next.2 ⟨hf, .inl ⟨decide_eq_true hc, hl, rfl⟩⟩, ?_, ?_, s.ovr_writeStep_iff c, ?_, ?_,
    by simp only [State.writeStep_fields], hsequencer, hstorage, hrest, by simp only [State.writeStep_fields]⟩
  · simp [State.read_writeStep]
  · intro x k hother
    rw [State.read_writeStep, if_neg hother]
  · intro hlast
    obtain ⟨hL, hfill, hseq, hactive, hhist⟩ | ⟨hL, -⟩ := s.writeStep_swap c
    · refine ⟨hfill, ?_, ?_, by rw [hseq]; exact BitVec.toNat_add _ _, hactive, by rw [hhist, readyOf_eq_ite]⟩
      · simp [State.pend_writeStep, hL]
      · simp [State.pend_writeStep, s.active.other_ne]
    · omega
  · intro hlast
    obtain ⟨hL, -⟩ | ⟨hL, hfill, hseq, hactive, hhist⟩ := s.writeStep_swap c
    · omega
    · exact ⟨hfill, State.pend_writeStep_of_not_fill c hL .A, State.pend_writeStep_of_not_fill c hL .B, hseq, hactive, hhist⟩

/-- Settles O13: what changed is the element at (ACTIVE, FILL), so that unread there is the `corrupt` condition itself. -/
theorem unreadCodesChangeOnlyUnderOvr : Obligations.UnreadCodesChangeOnlyUnderOvr := by
  intro s t i x k hx hr hunread hne
  obtain ⟨⟨c, rfl⟩, rfl, rfl⟩ := onlyWriteChangesABuffer s t i hx hr x k hne
  refine ⟨⟨c, rfl⟩, hunread, ?_⟩
  obtain ⟨-, ⟨-, -, rfl⟩ | ⟨-, rfl⟩⟩ := exec_write_next.1 hx
  · exact (s.ovr_writeStep_iff c).2 (.inr hunread)
  · exact absurd (by rw [State.buf_refuse]) hne

end Sys2Proof.Proofs
end

section
/-! PROOFS. The family `41_dispatcher.md`. First the layer these proofs need: the two checks as one check of a condition `x`
(R122, R123), where the sequencer stands and which steps move it (R120), one block served from its acknowledge to its last
record (R145, R146), and how far the sequencer is from a check, along a fair run (R126, R250). Then the statements O16, O17,
O18, O19, O55 and O57. -/

namespace Sys2Proof.Machine

variable {s t u : State} {i : Instr} {x : Buf}

/-! ### Where a sequencer step is not enabled (R82, R120) -/

theorem whenEnabled_refused {k : BitVec 4} {p : Bool} {r : Result} (hf : s.faults = []) (hp : ¬ p = true) :
    whenEnabled s k p r = .refused (.notEnabled k) := by
  rw [whenEnabled, whenRunning_eq s _ hf, if_neg hp]

theorem State.irq_iff (s : State) : s.irq = true ↔ s.pendA = true ∨ s.pendB = true := Bool.or_eq_true_iff

/-- `IRQ` is a level over the pending flags (R218). -/
theorem State.irq_of_pend (h : s.pend x = true) : s.irq = true := by
  rw [State.irq_iff]
  cases x
  exacts [.inl h, .inr h]

/-! ### The check of ready condition `x` (R122, R123) -/

/-- The phase in which the check of condition `x` is the sequencer's step. -/
def phaseOfCheck : Buf → Phase
  | .A => .checkA
  | .B => .checkB

/-- The history entry of the check of condition `x`. -/
def checkEvent : Buf → Event
  | .A => .checkA
  | .B => .checkB

/-- Where `x` is not pending its check goes on to where its last record would have led. -/
theorem exec_checkOf_next : exec (checkOf x) s = .next t ↔
    s.faults = [] ∧ s.phase = phaseOfCheck x ∧ t = (s.check x (phaseAfterLast x)).record (checkEvent x) := by
  cases x
  exacts [exec_checkA_next, exec_checkB_next]

theorem exec_checkOf_refused (hf : s.faults = []) (hp : s.phase ≠ phaseOfCheck x) :
    exec (checkOf x) s = .refused (.notEnabled (checkEvent x).kind) := by
  cases x <;> exact whenEnabled_refused hf (by simpa [phaseOfCheck] using hp)

theorem State.check_of_pend (h : s.pend x = true) (p : Phase) : s.check x p = s.acknowledge x := if_pos h

theorem State.check_of_not_pend (h : s.pend x = false) (p : Phase) : s.check x p = s.goTo p :=
  if_neg (by rw [h]; decide)

@[simp] theorem State.check_phase (s : State) (x : Buf) (p : Phase) :
    (s.check x p).phase = if s.pend x then .capture else p := by
  cases hx : s.pend x
  · simp [State.check_of_not_pend hx]
  · simp [State.check_of_pend hx]

/-- A check leaves both buffers, the sticky flags, the Buffer Processor's storage, the parameters and the records. -/
theorem State.check_same (s : State) (x : Buf) (p : Phase) :
    (∀ y k, ((s.check x p).buf y).read k = (s.buf y).read k) ∧ SameSticky s (s.check x p) ∧ SameStorage s (s.check x p) ∧
      SameRest s (s.check x p) := by
  simp [SameSticky, SameStorage, SameRest, State.check_fields]

/-- Everything the check of a condition does in its phase, the same for both. -/
theorem exec_checkOf_effect (hf : s.faults = []) (hp : s.phase = phaseOfCheck x) :
    ∃ t, exec (checkOf x) s = .next t ∧
      (s.pend x = true → t.pend x = false ∧ t.cur = x ∧ t.j = 0 ∧ t.phase = .capture) ∧
      (s.pend x = false → t.pend x = false ∧ t.cur = s.cur ∧ t.j = s.j ∧ t.phase = phaseAfterLast x) ∧
      (∀ y k, (t.buf y).read k = (s.buf y).read k) ∧ t.active = s.active ∧ t.fill = s.fill ∧
      t.pend x.other = s.pend x.other ∧ t.seq = s.seq ∧ t.e = s.e ∧ SameSticky s t ∧ SameStorage s t ∧ SameRest s t ∧
      t.freeCtr = s.freeCtr ∧ t.history = checkEvent x :: s.history := by
  obtain ⟨hbuf, hsticky, hstorage, hrest⟩ := s.check_same x (phaseAfterLast x)
  obtain ⟨hactive, hfill, hseq, -, -, -, -, -, -, he, -, -, -, hhist, -, -, hfree⟩ := s.check_fields x (phaseAfterLast x)
  refine ⟨_, exec_checkOf_next.2 ⟨hf, hp, rfl⟩, fun hx => ?_, fun hx => ?_, hbuf, hactive, hfill, ?_, hseq, he, hsticky,
    hstorage, hrest, hfree, congrArg _ hhist⟩
  · simp [State.check_of_pend hx, State.pend_acknowledge]
  · simp [State.check_of_not_pend hx, hx]
  · simp [State.pend_check]

/-! ### The steps that move the sequencer (R120) -/

/-- The steps of the sequencer. -/
def sequencerSteps : List Instr := [.start, .checkA, .checkB, .capture, .compute, .emit]

theorem mem_sequencerSteps_iff :
    i ∈ sequencerSteps ↔ i = .start ∨ i = .checkA ∨ i = .checkB ∨ i = .capture ∨ i = .compute ∨ i = .emit := by
  simp [sequencerSteps]

/-- No step of another agent, but `RESET`, touches the sequencer. -/
theorem Taken.sequencer_eq (h : Taken s i t) (hr : i ≠ .reset) (hi : i ∉ sequencerSteps) : SameSequencer s t := by
  cases h with
  | reset => exact absurd rfl hr
  | write c => exact (s.writeStep_same c).1
  | refused | busRd | busWr | wrCtrl | scale | fir => exact ⟨rfl, rfl, rfl, rfl⟩
  | _ => exact absurd (by simp [sequencerSteps]) hi

/-- A step that raises leaves `FAULTS` with a member. -/
theorem State.raise_faults_ne_nil (s : State) (f : FaultRecord) : (s.raise f).faults ≠ [] :=
  List.ne_nil_of_mem List.mem_insert_self

/-- A `CAPTURE` that raises nothing stores the code it read (R141). -/
theorem exec_capture_running (h : exec .capture s = .next t) (hf : t.faults = []) :
    s.phase = .capture ∧ s.j < s.cfg.bufLen ∧ ∃ c, t = (s.storeCapture c).record .capture := by
  obtain ⟨-, hp, hj, rfl⟩ := exec_capture_next.1 h
  obtain ⟨-, hraise⟩ | ⟨c, -, hstore⟩ := s.captureStep_cases
  · rw [hraise] at hf
    exact absurd hf (s.raise_faults_ne_nil _)
  · exact ⟨hp, hj, c, hstore⟩

/-- A `COMPUTE` that raises nothing filters the block (R142). -/
theorem exec_compute_running (h : exec .compute s = .next t) (hf : t.faults = []) :
    s.phase = .compute ∧ ∃ r, t = (s.filterBlock r).record .compute := by
  obtain ⟨-, hp, rfl⟩ := exec_compute_next.1 h
  obtain ⟨k, -, -, hraise⟩ | ⟨r, hfilter, -⟩ := s.computeStep_cases
  · rw [hraise] at hf
    exact absurd hf (s.raise_faults_ne_nil _)
  · exact ⟨hp, r, hfilter⟩

/-- R120 tells the last element by what is left, R141 and R145 by the last index. -/
theorem ite_last_eq_ite_left {n len : Nat} (h : n < len) (p q : Phase) :
    (if n + 1 = len then p else q) = if n + 1 < len then q else p := by
  by_cases hlast : n + 1 = len
  · rw [if_pos hlast, if_neg hlast.not_lt]
  · rw [if_neg hlast, if_pos (Nat.lt_of_le_of_ne h hlast)]

theorem phaseAfterLast_eq_ite (x : Buf) : phaseAfterLast x = if x = .A then .checkB else .idle := by cases x <;> rfl

/-! ### One block served (R141, R142, R145, R146) -/

/-- The steps that process one block: `CAPTURE xL`, `COMPUTE`, `EMIT xL` (R83). -/
def processSteps (len : Nat) : List Instr := List.replicate len .capture ++ [.compute] ++ List.replicate len .emit

/-- What processing a block leaves as it was, from its acknowledge to its last record. -/
structure SameServed (s t : State) : Prop where
  cfg : t.cfg = s.cfg
  faults : t.faults = s.faults
  cur : t.cur = s.cur
  buf : ∀ y, t.buf y = s.buf y
  pend : ∀ y, t.pend y = s.pend y
  sticky : SameSticky s t

theorem SameServed.trans (h : SameServed s t) (h' : SameServed t u) : SameServed s u where
  cfg := h'.cfg.trans h.cfg
  faults := h'.faults.trans h.faults
  cur := h'.cur.trans h.cur
  buf y := (h'.buf y).trans (h.buf y)
  pend y := (h'.pend y).trans (h.pend y)
  sticky := ⟨h'.sticky.1.trans h.sticky.1, h'.sticky.2.trans h.sticky.2⟩

theorem SameServed.storeCapture (s : State) (c : Code) : SameServed s ((s.storeCapture c).record .capture) := by
  constructor <;> simp [SameSticky]

theorem SameServed.filterBlock (s : State) : SameServed s ((s.filterBlock s.range).record .compute) := by
  constructor <;> simp [SameSticky]

theorem SameServed.emitStep (s : State) : SameServed s s.emitStep := by
  constructor <;> simp [SameSticky, State.emitStep]

/-- `CAP` captured up to `J` and the code stored at `J`: captured up to `J + 1`. -/
theorem take_set_succ {cap : List (Option Code)} {codes : List Code} {j : Nat} {c : Code} (hj : j < cap.length)
    (hcap : cap.take j = (codes.take j).map some) (hc : codes[j]? = some c) :
    (cap.set j (some c)).take (j + 1) = (codes.take (j + 1)).map some := by
  rw [List.take_add_one, List.take_add_one, List.take_set_of_le le_rfl, hcap, hc, List.map_append]
  simp [hj]

/-- The sequencer is capturing a buffer that holds the block `codes`, and has captured it up to `J`. -/
structure State.Capturing (s : State) (codes : List Code) : Prop where
  faults : s.faults = []
  phase : s.phase = .capture
  j_lt : s.j < s.cfg.bufLen
  codes_len : codes.length = s.cfg.bufLen
  cap_len : s.cap.length = s.cfg.bufLen
  read : ∀ k, k < s.cfg.bufLen → (s.buf s.cur).read k = codes[k]?
  captured : s.cap.take s.j = (codes.take s.j).map some

/-- R141: `CAPTURE` takes the next code of the block, and has it whole after the last. -/
theorem State.Capturing.exec_capture {codes : List Code} (h : s.Capturing codes) :
    ∃ c, exec .capture s = .next ((s.storeCapture c).record .capture) ∧
      (s.j + 1 ≠ s.cfg.bufLen → ((s.storeCapture c).record .capture).Capturing codes) ∧
      (s.j + 1 = s.cfg.bufLen → (s.storeCapture c).phase = .compute ∧ (s.storeCapture c).cap = codes.map some) := by
  obtain ⟨c, hc⟩ : ∃ c, codes[s.j]? = some c := ⟨_, List.getElem?_eq_getElem (h.codes_len ▸ h.j_lt)⟩
  have hread : (s.buf s.cur).read s.j = some c := (h.read _ h.j_lt).trans hc
  have hcaptured := take_set_succ (h.cap_len ▸ h.j_lt) h.captured hc
  refine ⟨c, exec_capture_next.2 ⟨h.faults, h.phase, h.j_lt, by rw [State.captureStep, hread]⟩, fun hL => ?_, fun hL => ?_⟩
  · exact
    { faults := h.faults
      phase := if_neg hL
      j_lt := Nat.lt_of_le_of_ne h.j_lt hL
      codes_len := h.codes_len
      cap_len := List.length_set.trans h.cap_len
      read := by simpa using h.read
      captured := hcaptured }
  · refine ⟨if_pos hL, ?_⟩
    rwa [List.take_of_length_le (by simp [h.cap_len, hL]), List.take_of_length_le (by simp [h.codes_len, hL])] at hcaptured

/-- R141: as many `CAPTURE`s as elements are left capture the whole block. -/
theorem State.Capturing.runsTo {codes : List Code} (n : Nat) (h : s.Capturing codes) (hn : s.j + (n + 1) = s.cfg.bufLen) :
    ∃ t, RunsTo NotReset (List.replicate (n + 1) .capture) s t ∧ SameServed s t ∧ t.phase = .compute ∧
      t.cap = codes.map some ∧ t.hist = s.hist ∧ recordsOf t.history = recordsOf s.history := by
  induction n generalizing s with
  | zero =>
    obtain ⟨c, hstep, -, hlast⟩ := h.exec_capture
    obtain ⟨hphase, hcap⟩ := hlast hn
    exact ⟨_, .single nofun hstep, .storeCapture s c, hphase, hcap, rfl, rfl⟩
  | succ n ih =>
    obtain ⟨c, hstep, hmore, -⟩ := h.exec_capture
    obtain ⟨t, hrun, hsame, hphase, hcap, hhist, hrecords⟩ := ih (hmore (by omega))
      (by show s.j + 1 + (n + 1) = s.cfg.bufLen; omega)
    exact ⟨t, ⟨nofun, _, hstep, hrun⟩, .trans (.storeCapture s c) hsame, hphase, hcap, hhist, hrecords⟩

/-- The scaled block of a captured one (R142). -/
theorem State.scaledBlock_of_cap {codes : List Code} (hcap : s.cap = codes.map some) (hlen : codes.length = s.cfg.bufLen) :
    s.scaledBlock = codes.map (scaleFn s.cfg) := by
  refine List.ext_getElem (by simp [State.scaledBlock, hlen]) fun k hk hk' => ?_
  have hkc : k < codes.length := by simpa using hk'
  simp [State.scaledBlock, State.capCode, hcap, hkc]

/-- R173: no captured code is above `MAX_CODE`. -/
theorem State.firstAboveMax_of_cap {codes : List Code} (hcap : s.cap = codes.map some)
    (hlen : codes.length = s.cfg.bufLen) (hmax : ∀ c ∈ codes, c.toNat ≤ s.cfg.maxCode) : s.firstAboveMax = none := by
  refine List.find?_eq_none.2 fun k hk => ?_
  have hkc : k < codes.length := hlen ▸ List.mem_range.1 hk
  simpa [State.capCode, hcap, hkc] using hmax _ (List.getElem_mem hkc)

/-- The sequencer is handing over the records of `U` and `F`, from `E` on. -/
structure State.Emitting (s : State) (U F : List Val) : Prop where
  faults : s.faults = []
  phase : s.phase = .emit
  e_lt : s.e < s.cfg.bufLen
  outU : s.outU = U.map some
  outF : s.outF = F.map some
  lenU : U.length = s.cfg.bufLen
  lenF : F.length = s.cfg.bufLen

/-- R142: `COMPUTE` on a captured block with no code above `MAX_CODE` has the records ready. -/
theorem exec_compute_of_cap {codes : List Code} (hf : s.faults = []) (hp : s.phase = .compute) (hL : 0 < s.cfg.bufLen)
    (hcap : s.cap = codes.map some) (hlen : codes.length = s.cfg.bufLen) (hmax : ∀ c ∈ codes, c.toNat ≤ s.cfg.maxCode) :
    exec .compute s = .next ((s.filterBlock s.range).record .compute) ∧
      ((s.filterBlock s.range).record .compute).Emitting (codes.map (scaleFn s.cfg))
        (firBlock s.cfg s.hist (codes.map (scaleFn s.cfg))).1 := by
  have hblock := State.scaledBlock_of_cap hcap hlen
  refine ⟨exec_compute_next.2 ⟨hf, hp, by rw [State.computeStep, State.firstAboveMax_of_cap hcap hlen hmax]⟩, ?_⟩
  constructor <;> simp [hf, hL, hblock, hlen]

theorem State.Emitting.exec_emit {U F : List Val} (h : s.Emitting U F) : exec .emit s = .next s.emitStep :=
  exec_emit_next.2 ⟨h.faults, h.phase, h.e_lt, rfl⟩

/-- R145: with records left the sequencer goes on handing them over. -/
theorem State.Emitting.emitStep {U F : List Val} (h : s.Emitting U F) (hL : s.e + 1 ≠ s.cfg.bufLen) :
    s.emitStep.Emitting U F :=
  { h with phase := if_neg hL, e_lt := Nat.lt_of_le_of_ne h.e_lt hL }

/-- R38, R145: `EMIT` hands over record `E`. -/
theorem State.Emitting.recordsOf_emitStep {U F : List Val} (h : s.Emitting U F) :
    recordsOf s.emitStep.history ++ (U.zip F).drop (s.e + 1) = recordsOf s.history ++ (U.zip F).drop s.e := by
  have hU : s.e < U.length := h.lenU ▸ h.e_lt
  have hF : s.e < F.length := h.lenF ▸ h.e_lt
  have hu : s.recordU = U[s.e] := State.recordU_of_recU (by simp [State.recU, h.outU, hU])
  have hfil : s.recordF = F[s.e] := State.recordF_of_recF (by simp [State.recF, h.outF, hF])
  rw [List.drop_eq_getElem_cons (i := s.e) (by simp [hU, hF]), State.emitStep, State.record_history, recordsOf, hu, hfil]
  simp

/-- R145: as many `EMIT`s as records are left hand them all over, in order. -/
theorem State.Emitting.runsTo {U F : List Val} (n : Nat) (h : s.Emitting U F) (hn : s.e + (n + 1) = s.cfg.bufLen) :
    ∃ t, RunsTo NotReset (List.replicate (n + 1) .emit) s t ∧ SameServed s t ∧ t.phase = phaseAfterLast s.cur ∧
      t.hist = s.hist ∧ recordsOf t.history = recordsOf s.history ++ (U.zip F).drop s.e := by
  rw [← h.recordsOf_emitStep]
  induction n generalizing s with
  | zero =>
    refine ⟨_, .single nofun h.exec_emit, .emitStep s, if_pos hn, rfl, ?_⟩
    rw [List.drop_eq_nil_of_le (by simp [h.lenU, h.lenF]; omega), List.append_nil]
  | succ n ih =>
    have hmore := h.emitStep (by omega)
    obtain ⟨t, hrun, hsame, hphase, hhist, hrecords⟩ := ih hmore
      (by show s.e + 1 + (n + 1) = s.cfg.bufLen; omega)
    exact ⟨t, ⟨nofun, _, h.exec_emit, hrun⟩, .trans (.emitStep s) hsame, hphase, hhist,
      hrecords.trans hmore.recordsOf_emitStep⟩

/-- R146: a block captured from its first element on is scaled, filtered and handed over, in order. -/
theorem State.Capturing.process_runsTo {codes : List Code} (h : s.Capturing codes) (hj : s.j = 0)
    (hmax : ∀ c ∈ codes, c.toNat ≤ s.cfg.maxCode) :
    ∃ t, RunsTo NotReset (processSteps s.cfg.bufLen) s t ∧ SameServed s t ∧ t.phase = phaseAfterLast s.cur ∧
      t.hist = (firBlock s.cfg s.hist (codes.map (scaleFn s.cfg))).2 ∧
      recordsOf t.history = recordsOf s.history ++
        (codes.map (scaleFn s.cfg)).zip (firBlock s.cfg s.hist (codes.map (scaleFn s.cfg))).1 := by
  obtain ⟨n, hn⟩ : ∃ n, n + 1 = s.cfg.bufLen := ⟨s.cfg.bufLen - 1, Nat.sub_add_cancel (Nat.zero_lt_of_lt h.j_lt)⟩
  obtain ⟨u, hcaptures, hsame, hphase, hcap, hhist, hrecords⟩ := h.runsTo n (by omega)
  have hlen : codes.length = u.cfg.bufLen := hsame.cfg ▸ h.codes_len
  rw [← hsame.cfg, ← hsame.cur, ← hhist, ← hrecords]
  rw [← hsame.cfg] at hn hmax
  obtain ⟨hcompute, hready⟩ := exec_compute_of_cap (hsame.faults.trans h.faults) hphase (by omega) hcap hlen hmax
  obtain ⟨t, hemits, hsame', hphase', hhist', hrecords'⟩ := hready.runsTo n (by simpa using hn)
  refine ⟨t, ?_, hsame.trans (.trans (.filterBlock u) hsame'), hphase', ?_, hrecords'⟩
  · rw [processSteps, ← hn]
    exact (hcaptures.append (.single (i := .compute) nofun hcompute)).append hemits
  · rw [hhist', State.record_hist, State.filterBlock_hist, State.scaledBlock_of_cap hcap hlen]

theorem RunsTo.inv {P : State → Instr → Prop} : ∀ {is : List Instr} {s t : State}, RunsTo P is s t → s.Inv → t.Inv
  | [], _, _, rfl, hs => hs
  | _ :: _, _, _, ⟨_, _, hx, hrun⟩, hs => hrun.inv (exec_keeps_inv hx hs)

theorem checkOf_ne_reset (x : Buf) : checkOf x ≠ .reset := by cases x <;> nofun

theorem recordsOf_checkEvent (x : Buf) (h : List Event) : recordsOf (checkEvent x :: h) = recordsOf h := by cases x <;> rfl

/-- The acknowledge of a pending condition begins the capture of the block its buffer holds. -/
theorem State.Inv.capturing_acknowledge {codes : List Code} (hs : s.Inv) (hf : s.faults = [])
    (hlen : codes.length = s.cfg.bufLen) (hread : ∀ k, k < s.cfg.bufLen → (s.buf x).read k = codes[k]?) (ev : Event) :
    ((s.acknowledge x).record ev).Capturing codes := by
  constructor
  case read => simpa using hread
  all_goals simp [hf, hlen, hs.cap_len, hs.bufLen_pos]

/-- R128: a pending condition is served from its check to its last record. -/
theorem State.Inv.serve_runsTo {codes : List Code} (hs : s.Inv) (hf : s.faults = []) (hp : s.phase = phaseOfCheck x)
    (hx : s.pend x = true) (hlen : codes.length = s.cfg.bufLen)
    (hread : ∀ k, k < s.cfg.bufLen → (s.buf x).read k = codes[k]?) (hmax : ∀ c ∈ codes, c.toNat ≤ s.cfg.maxCode) :
    ∃ t, RunsTo NotReset (checkOf x :: processSteps s.cfg.bufLen) s t ∧ SameServed (s.acknowledge x) t ∧
      t.phase = phaseAfterLast x ∧ t.hist = (firBlock s.cfg s.hist (codes.map (scaleFn s.cfg))).2 ∧
      recordsOf t.history = recordsOf s.history ++
        (codes.map (scaleFn s.cfg)).zip (firBlock s.cfg s.hist (codes.map (scaleFn s.cfg))).1 := by
  have hcheck : exec (checkOf x) s = .next ((s.acknowledge x).record (checkEvent x)) :=
    exec_checkOf_next.2 ⟨hf, hp, by rw [State.check_of_pend hx]⟩
  have hcapturing := hs.capturing_acknowledge hf hlen hread (checkEvent x)
  obtain ⟨t, hrun, hsame, hphase, hhist, hrecords⟩ := hcapturing.process_runsTo (by simp) (by simpa using hmax)
  refine ⟨t, ⟨checkOf_ne_reset x, _, hcheck, by simpa using hrun⟩, { hsame with }, by simpa using hphase,
    by simpa using hhist, ?_⟩
  rw [hrecords, State.record_history, recordsOf_checkEvent]
  simp

/-! ### How far the sequencer is from a check (R120, R126) -/

/-- The most sequencer steps from a phase in which no buffer is processed to the check of `x`: a check and a block take
`2 L + 2`, `START` one. -/
def stepsBetweenBlocks (len : Nat) : Buf → Phase → Nat
  | .A, .idle => 1
  | .A, .checkB => 2 * len + 3
  | .B, .checkA => 2 * len + 2
  | .B, .idle => 2 * len + 3
  | _, _ => 0

/-- The most sequencer steps from a state to the phase of the check of `x`: those left of the block being processed, and
those from its end on. -/
def State.stepsToCheck (s : State) (x : Buf) : Nat :=
  match s.phase with
  | .capture => s.cfg.bufLen - s.j + 1 + s.cfg.bufLen + stepsBetweenBlocks s.cfg.bufLen x (phaseAfterLast s.cur)
  | .compute => 1 + s.cfg.bufLen + stepsBetweenBlocks s.cfg.bufLen x (phaseAfterLast s.cur)
  | .emit => s.cfg.bufLen - s.e + stepsBetweenBlocks s.cfg.bufLen x (phaseAfterLast s.cur)
  | p => stepsBetweenBlocks s.cfg.bufLen x p

theorem State.stepsToCheck_capture (hp : s.phase = .capture) : s.stepsToCheck x =
    s.cfg.bufLen - s.j + 1 + s.cfg.bufLen + stepsBetweenBlocks s.cfg.bufLen x (phaseAfterLast s.cur) := by
  rw [State.stepsToCheck, hp]

theorem State.stepsToCheck_compute (hp : s.phase = .compute) : s.stepsToCheck x =
    1 + s.cfg.bufLen + stepsBetweenBlocks s.cfg.bufLen x (phaseAfterLast s.cur) := by
  rw [State.stepsToCheck, hp]

theorem State.stepsToCheck_emit (hp : s.phase = .emit) : s.stepsToCheck x =
    s.cfg.bufLen - s.e + stepsBetweenBlocks s.cfg.bufLen x (phaseAfterLast s.cur) := by
  rw [State.stepsToCheck, hp]

theorem State.stepsToCheck_between {p : Phase} (hp : s.phase = p) (hb : p ∉ [Phase.capture, .compute, .emit]) :
    s.stepsToCheck x = stepsBetweenBlocks s.cfg.bufLen x p := by
  rw [State.stepsToCheck, hp]
  cases p <;> simp at hb <;> rfl

/-- The distance is read off the sequencer's fields and `L`. -/
theorem State.stepsToCheck_congr (h : SameSequencer s t) (hcfg : t.cfg = s.cfg) : t.stepsToCheck x = s.stepsToCheck x := by
  obtain ⟨hphase, hcur, hj, he⟩ := h
  rw [State.stepsToCheck, State.stepsToCheck, hphase, hcur, hj, he, hcfg]

theorem stepsBetweenBlocks_idle (len : Nat) (x : Buf) :
    stepsBetweenBlocks len x .idle = 1 + stepsBetweenBlocks len x .checkA := by
  cases x
  · rfl
  · simp only [stepsBetweenBlocks]
    omega

/-- To the check of `x`, the check of the other condition is followed by at most a block. -/
theorem stepsBetweenBlocks_check (len : Nat) {x y : Buf} (hne : y ≠ x) :
    stepsBetweenBlocks len x (phaseOfCheck y) = 2 * len + 2 + stepsBetweenBlocks len x (phaseAfterLast y) := by
  cases x <;> cases y <;> simp [stepsBetweenBlocks, phaseOfCheck, phaseAfterLast] at hne ⊢

theorem phaseOfCheck_not_processing (x : Buf) : phaseOfCheck x ∉ [Phase.capture, .compute, .emit] := by
  cases x <;> decide

/-- The check of the other condition brings the sequencer nearer: into its block, or past it. -/
theorem stepsToCheck_check_lt {y : Buf} (hp : s.phase = phaseOfCheck y) (hne : y ≠ x) :
    (s.check y (phaseAfterLast y)).stepsToCheck x < s.stepsToCheck x := by
  rw [State.stepsToCheck_between hp (phaseOfCheck_not_processing y), stepsBetweenBlocks_check _ hne]
  obtain ⟨-, hcheck⟩ | ⟨-, hcheck⟩ := s.check_cases y (phaseAfterLast y)
  · rw [hcheck, State.stepsToCheck_capture (s.acknowledge_phase y), State.acknowledge_cfg, State.acknowledge_j,
      State.acknowledge_cur]
    omega
  · rw [hcheck, State.stepsToCheck_between (s.goTo_phase _) (phaseAfterLast_not_processing y), State.goTo_cfg]
    omega

theorem stepsToCheck_storeCapture_lt (hp : s.phase = .capture) (hj : s.j < s.cfg.bufLen) (c : Code) :
    (s.storeCapture c).stepsToCheck x < s.stepsToCheck x := by
  rw [State.stepsToCheck_capture hp]
  obtain ⟨-, hphase⟩ | ⟨-, hphase⟩ := s.storeCapture_phase_cases c
  · rw [State.stepsToCheck_compute hphase, State.storeCapture_cfg, State.storeCapture_cur]
    omega
  · rw [State.stepsToCheck_capture hphase, State.storeCapture_cfg, State.storeCapture_cur, State.storeCapture_j]
    omega

theorem stepsToCheck_filterBlock_lt (hp : s.phase = .compute) (r : Bool) :
    (s.filterBlock r).stepsToCheck x < s.stepsToCheck x := by
  rw [State.stepsToCheck_compute hp, State.stepsToCheck_emit (s.filterBlock_phase r), State.filterBlock_cfg,
    State.filterBlock_cur, State.filterBlock_e]
  omega

theorem stepsToCheck_advanceEmit_lt (hp : s.phase = .emit) (he : s.e < s.cfg.bufLen) :
    s.advanceEmit.stepsToCheck x < s.stepsToCheck x := by
  rw [State.stepsToCheck_emit hp]
  have hphase := s.advanceEmit_phase
  split at hphase
  · rw [State.stepsToCheck_between hphase (phaseAfterLast_not_processing s.cur), State.advanceEmit_cfg]
    omega
  · rw [State.stepsToCheck_emit hphase, State.advanceEmit_cfg, State.advanceEmit_cur, State.advanceEmit_e]
    omega

/-- Every sequencer step that raises nothing, but the check of `x` itself, brings the sequencer nearer to it. -/
theorem stepsToCheck_lt_of_sequencerStep (h : exec i s = .next t) (hi : i ∈ sequencerSteps) (hf : t.faults = [])
    (hne : i ≠ checkOf x) : t.stepsToCheck x < s.stepsToCheck x := by
  have hcheck : ∀ y, i = checkOf y → t.stepsToCheck x < s.stepsToCheck x := by
    rintro y rfl
    obtain ⟨-, hp, rfl⟩ := exec_checkOf_next.1 h
    exact stepsToCheck_check_lt hp fun hy => hne (by rw [hy])
  obtain rfl | rfl | rfl | rfl | rfl | rfl := mem_sequencerSteps_iff.1 hi
  · obtain ⟨-, hp, -, rfl⟩ := exec_start_next.1 h
    rw [State.stepsToCheck_between hp (by decide), stepsBetweenBlocks_idle]
    exact Nat.lt_add_of_pos_left Nat.one_pos
  · exact hcheck .A rfl
  · exact hcheck .B rfl
  · obtain ⟨hp, hj, c, rfl⟩ := exec_capture_running h hf
    exact stepsToCheck_storeCapture_lt hp hj c
  · obtain ⟨hp, r, rfl⟩ := exec_compute_running h hf
    exact stepsToCheck_filterBlock_lt hp r
  · obtain ⟨-, hp, he, rfl⟩ := exec_emit_next.1 h
    exact stepsToCheck_advanceEmit_lt hp he

/-- A step of any agent but `RESET` that raises nothing and is not the check of `x` takes the sequencer no further from it. -/
theorem stepsToCheck_le_of_step (h : exec i s = .next t) (hr : i ≠ .reset) (hf : t.faults = []) (hne : i ≠ checkOf x) :
    t.stepsToCheck x ≤ s.stepsToCheck x := by
  by_cases hi : i ∈ sequencerSteps
  · exact (stepsToCheck_lt_of_sequencerStep h hi hf hne).le
  · exact (State.stepsToCheck_congr ((exec_taken h).sequencer_eq hr hi) (exec_keeps_cfg h)).le

/-! ### The step that is due (R120, R250) -/

/-- The sequencer step of a phase. -/
def stepOfPhase : Phase → Instr
  | .idle => .start
  | .checkA => .checkA
  | .checkB => .checkB
  | .capture => .capture
  | .compute => .compute
  | .emit => .emit

theorem stepOfPhase_mem_sequencerSteps (p : Phase) : stepOfPhase p ∈ sequencerSteps := by
  cases p <;> simp [stepOfPhase, sequencerSteps]

/-- In a state of the invariant the step of the phase can be taken; `START` needs a condition pending. -/
theorem State.Inv.enabled_stepOfPhase (h : s.Inv) (hf : s.faults = []) (hirq : s.phase = .idle → s.irq = true) :
    Enabled (stepOfPhase s.phase) s := by
  cases hp : s.phase with
  | idle => exact ⟨_, exec_start_next.2 ⟨hf, hp, hirq hp, rfl⟩⟩
  | checkA => exact ⟨_, exec_checkA_next.2 ⟨hf, hp, rfl⟩⟩
  | checkB => exact ⟨_, exec_checkB_next.2 ⟨hf, hp, rfl⟩⟩
  | capture => exact ⟨_, exec_capture_next.2 ⟨hf, hp, h.j_lt hp, rfl⟩⟩
  | compute => exact ⟨_, exec_compute_next.2 ⟨hf, hp, rfl⟩⟩
  | emit => exact ⟨_, exec_emit_next.2 ⟨hf, hp, h.e_lt hp, rfl⟩⟩

/-- A step of an agent was taken, so `FAULTS` was empty (R37). -/
theorem IsStep.faults_eq_nil (hi : IsStep s i) (h : exec i s = .next t) : s.faults = [] := by
  obtain ⟨-, hscale, hfir⟩ := hi
  by_contra hf
  rw [exec_faulted hf] at h
  · cases h
  · rw [Option.isSome_iff_ne_none, ne_eq, Sys2Proof.Laws.encode_eq_none_iff]
    rintro (⟨c, rfl⟩ | ⟨a, b, rfl⟩)
    exacts [hscale c rfl, hfir a b rfl]

/-- Only its own check clears a pending flag. -/
theorem exec_keeps_pend (h : exec i s = .next t) (hr : i ≠ .reset) (hne : i ≠ checkOf x) (hx : s.pend x = true) :
    t.pend x = true := by
  obtain hkeep | ⟨hset, -⟩ | ⟨-, hi⟩ := (exec_taken h).pend_cases hr x
  exacts [hkeep.trans hx, hset, absurd hi hne]

/-! ### Infinite runs (R10, R250) -/

section FairRun

variable {run : Nat → State} {steps : Nat → Instr} {n : Nat}

theorem InfiniteRun.inv {P : State → Instr → Prop} (h : InfiniteRun P run steps) (h0 : (run 0).Inv) (n : Nat) :
    (run n).Inv :=
  h.invariant h0 (fun _ _ _ _ => exec_keeps_inv) n

/-- A run of agents' steps never ends, so it raises no fault. -/
theorem InfiniteRun.faults_eq_nil {P : State → Instr → Prop} (h : InfiniteRun P run steps)
    (hP : ∀ s i, P s i → IsStep s i) (n : Nat) : (run n).faults = [] :=
  (hP _ _ (h n).1).faults_eq_nil (h n).2

/-- R250 (i) and (ii) together. -/
theorem WeaklyFair.taken (hfair : WeaklyFair run steps) (hsink : SinkKeepsAccepting run steps) (hi : i ∈ sequencerSteps) :
    TakenIfItStaysEnabled i run steps := by
  by_cases hemit : i = .emit
  · exact hemit ▸ hsink
  · exact hfair i (by simpa [mem_sequencerSteps_iff, hemit] using hi)

/-- While no step moves it, the sequencer stands where it stood. -/
theorem InfiniteRun.sequencer_eq {P : State → Instr → Prop} (h : InfiniteRun P run steps)
    (hquiet : ∀ k, n ≤ k → steps k ≠ .reset ∧ steps k ∉ sequencerSteps) {m : Nat} (hm : n ≤ m) :
    SameSequencer (run n) (run m) := by
  induction m, hm using Nat.le_induction with
  | base => exact ⟨rfl, rfl, rfl, rfl⟩
  | succ k hk ih =>
    obtain ⟨hr, hi⟩ := hquiet k hk
    obtain ⟨hphase, hcur, hj, he⟩ := (exec_taken (h k).2).sequencer_eq hr hi
    obtain ⟨hphase', hcur', hj', he'⟩ := ih
    exact ⟨hphase.trans hphase', hcur.trans hcur', hj.trans hj', he.trans he'⟩

/-- R250: the sequencer does not stand still, unless it is idle with nothing pending. -/
theorem InfiniteRun.exists_sequencerStep {P : State → Instr → Prop} (h : InfiniteRun P run steps)
    (hP : ∀ s i, P s i → IsStep s i) (h0 : (run 0).Inv) (hfair : WeaklyFair run steps)
    (hsink : SinkKeepsAccepting run steps) (hirq : ∀ k, n ≤ k → (run k).phase = .idle → (run k).irq = true) :
    ∃ m, n ≤ m ∧ (steps m = .reset ∨ steps m ∈ sequencerSteps) := by
  by_contra hnone
  have hquiet : ∀ k, n ≤ k → steps k ≠ .reset ∧ steps k ∉ sequencerSteps := fun k hk =>
    not_or.1 fun hmoved => hnone ⟨k, hk, hmoved⟩
  have hdue := stepOfPhase_mem_sequencerSteps (run n).phase
  obtain ⟨m, hm, htaken⟩ := hfair.taken hsink hdue n fun k hk => by
    obtain ⟨hphase, -⟩ := h.sequencer_eq hquiet hk
    rw [← hphase]
    exact (h.inv h0 k).enabled_stepOfPhase (h.faults_eq_nil hP k) (hirq k hk)
  exact (hquiet m hm).2 (htaken ▸ hdue)

section NoReset

variable (h : InfiniteRun (fun s i => IsStep s i ∧ NotReset s i) run steps)

include h

/-- A condition stays pending up to the first step that is its own check. -/
theorem InfiniteRun.pend_until_check {m : Nat} (hne : ∀ k, n ≤ k → k < m → steps k ≠ checkOf x)
    (hx : (run n).pend x = true) {k : Nat} (hk : n ≤ k) (hkm : k ≤ m) : (run k).pend x = true := by
  induction k, hk using Nat.le_induction with
  | base => exact hx
  | succ k hk ih =>
    obtain ⟨⟨-, hr⟩, hstep⟩ := h k
    exact exec_keeps_pend hstep hr (hne k hk hkm) (ih (Nat.le_of_succ_le hkm))

/-- As long as the check of `x` is not taken, no step takes the sequencer further from it. -/
theorem InfiniteRun.stepsToCheck_le (hne : ∀ k, n ≤ k → steps k ≠ checkOf x) {a m : Nat} (ha : n ≤ a) (hm : a ≤ m) :
    (run m).stepsToCheck x ≤ (run a).stepsToCheck x := by
  induction m, hm using Nat.le_induction with
  | base => exact le_rfl
  | succ k hk ih =>
    obtain ⟨⟨-, hr⟩, hstep⟩ := h k
    exact (stepsToCheck_le_of_step hstep hr (h.faults_eq_nil (fun _ _ => And.left) _) (hne k (ha.trans hk))).trans ih

/-- R126: while `x` is pending the sequencer never stands still, and every one of its steps is one fewer to the check. -/
theorem InfiniteRun.exists_check (h0 : (run 0).Inv) (hfair : WeaklyFair run steps) (hsink : SinkKeepsAccepting run steps)
    (hx : (run n).pend x = true) : ∃ m, n ≤ m ∧ steps m = checkOf x := by
  by_contra hnone
  have hne : ∀ k, n ≤ k → steps k ≠ checkOf x := fun k hk hcheck => hnone ⟨k, hk, hcheck⟩
  have hpend : ∀ k, n ≤ k → (run k).pend x = true := fun k hk =>
    h.pend_until_check (fun k hk _ => hne k hk) hx hk le_rfl
  have hnearer : ∀ a, n ≤ a → ∃ b, n ≤ b ∧ (run b).stepsToCheck x < (run a).stepsToCheck x := by
    intro a ha
    obtain ⟨m, hm, hmoved⟩ := h.exists_sequencerStep (n := a) (fun _ _ => And.left) h0 hfair hsink
      fun k hk _ => State.irq_of_pend (hpend k (ha.trans hk))
    obtain ⟨⟨-, hr⟩, hstep⟩ := h m
    have hlt := stepsToCheck_lt_of_sequencerStep hstep (hmoved.resolve_left hr)
      (h.faults_eq_nil (fun _ _ => And.left) _) (hne m (ha.trans hm))
    exact ⟨m + 1, by omega, hlt.trans_le (h.stepsToCheck_le hne ha hm)⟩
  have hnever : ∀ d a, n ≤ a → ¬ (run a).stepsToCheck x < d := by
    intro d
    induction d with
    | zero => exact fun a _ => Nat.not_lt_zero _
    | succ d ih =>
      intro a ha hlt
      obtain ⟨b, hb, hba⟩ := hnearer a ha
      exact ih b hb (by omega)
  exact hnever _ n le_rfl (Nat.lt_succ_self _)

end NoReset

end FairRun

end Sys2Proof.Machine

/-! ### The statements -/

namespace Sys2Proof.Proofs

open Sys2Proof.Machine

/-- Settles O16: `START` is guarded by `IDLE` and by `IRQ`, the level over the two flags. -/
theorem startIsEnabledExactlyWhenIdleAndPending : Obligations.StartIsEnabledExactlyWhenIdleAndPending := by
  intro s hf
  simp only [← State.irq_iff]
  refine ⟨fun ⟨hp, hi⟩ => ⟨_, exec_start_next.2 ⟨hf, hp, hi, rfl⟩, ?_⟩, fun h => whenEnabled_refused hf (by simpa using h)⟩
  simp [SameEngine, SameSticky, SameStorage, SameRest]

/-- Settles O17: the check of a condition, of A. -/
theorem checkAAcknowledgesOrGoesOn : Obligations.CheckAAcknowledgesOrGoesOn :=
  fun _ hf => ⟨exec_checkOf_effect (x := .A) hf, exec_checkOf_refused (x := .A) hf⟩

/-- Settles O18: the check of a condition, of B. -/
theorem checkBAcknowledgesOrEnds : Obligations.CheckBAcknowledgesOrEnds :=
  fun _ hf => ⟨exec_checkOf_effect (x := .B) hf, exec_checkOf_refused (x := .B) hf⟩

/-- Settles O19: each sequencer step by the law of its instruction, and every other step keeps the sequencer. -/
theorem sequencerMovesOnlyAlongItsTable : Obligations.SequencerMovesOnlyAlongItsTable := by
  intro s t i h hr hf
  by_cases hi : i ∈ sequencerSteps
  · obtain rfl | rfl | rfl | rfl | rfl | rfl := mem_sequencerSteps_iff.1 hi
    · obtain ⟨-, hp, -, rfl⟩ := exec_start_next.1 h
      exact .inl ⟨rfl, hp, rfl⟩
    · obtain ⟨-, hp, rfl⟩ := exec_checkA_next.1 h
      exact .inr (.inl ⟨rfl, hp, s.check_phase .A _⟩)
    · obtain ⟨-, hp, rfl⟩ := exec_checkB_next.1 h
      exact .inr (.inr (.inl ⟨rfl, hp, s.check_phase .B _⟩))
    · obtain ⟨hp, hj, c, rfl⟩ := exec_capture_running h hf
      exact .inr (.inr (.inr (.inl ⟨rfl, hp, ite_last_eq_ite_left hj _ _⟩)))
    · obtain ⟨hp, r, rfl⟩ := exec_compute_running h hf
      exact .inr (.inr (.inr (.inr (.inl ⟨rfl, hp, rfl⟩))))
    · obtain ⟨-, hp, he, rfl⟩ := exec_emit_next.1 h
      refine .inr (.inr (.inr (.inr (.inr (.inl ⟨rfl, hp, ?_⟩)))))
      rw [← phaseAfterLast_eq_ite]
      exact ite_last_eq_ite_left he _ _
  · obtain ⟨hphase, -⟩ := (exec_taken h).sequencer_eq hr hi
    exact .inr (.inr (.inr (.inr (.inr (.inr ⟨hi, hphase⟩)))))

/-- Settles O55: A is served from its check on, which leaves B pending at the check of B, and B is served from there. -/
theorem anInvocationServesABeforeB : Obligations.AnInvocationServesABeforeB := by
  intro s codesA codesB hs hf hp hA hB hlenA hreadA hlenB hreadB hmax process VA VB HA
  have hstart := exec_start_next.2 ⟨hf, hp, s.irq_of_pend (x := .A) hA, rfl⟩
  have hs1 := exec_keeps_inv hstart hs
  obtain ⟨u, hrunA, hsameA, hphaseA, hhistA, hrecordsA⟩ := hs1.serve_runsTo (x := .A) hf rfl hA hlenA hreadA
    fun c hc => hmax c (List.mem_append_left _ hc)
  have hcfg : u.cfg = s.cfg := hsameA.cfg
  obtain ⟨t, hrunB, hsameB, hphaseB, hhistB, hrecordsB⟩ := (hrunA.inv hs1).serve_runsTo (x := .B) (codes := codesB)
    (hsameA.faults.trans hf) hphaseA ((hsameA.pend .B).trans hB) (hcfg ▸ hlenB) (by rw [hcfg, hsameA.buf]; exact hreadB)
    fun c hc => hcfg ▸ hmax c (List.mem_append_right _ hc)
  rw [hcfg] at hrunB hhistB hrecordsB
  rw [hhistA] at hhistB hrecordsB
  have hpendA : t.pend .A = false := (hsameB.pend .A).trans (hsameA.pend .A)
  have hpendB : t.pend .B = false := hsameB.pend .B
  refine ⟨t, ?_, ⟨hphaseB, Bool.or_eq_false_iff.2 ⟨hpendA, hpendB⟩⟩, hsameB.cur, ?_, hhistB⟩
  · rw [List.append_assoc _ [Instr.checkB]]
    exact ⟨nofun, _, hstart, hrunA.append hrunB⟩
  · rw [hrecordsB, hrecordsA]
    rfl

/-- Settles O57: the check that comes is the first one from `n` on, so that it finds the condition pending. -/
theorem everyReadyConditionIsAcknowledged : Obligations.EveryReadyConditionIsAcknowledged := by
  intro run steps h0 h hfair hsink n x hx
  have hcheck := h.exists_check h0 hfair hsink hx
  obtain ⟨hm, htaken⟩ := Nat.find_spec hcheck
  have hfirst : ∀ k, n ≤ k → k < Nat.find hcheck → steps k ≠ checkOf x := fun k hk hlt hk' =>
    Nat.find_min hcheck hlt ⟨hk, hk'⟩
  have hpend : ∀ k, n ≤ k → k ≤ Nat.find hcheck → (run k).pend x = true := fun k => h.pend_until_check hfirst hx
  refine ⟨Nat.find hcheck, hm, htaken, hpend, ?_⟩
  obtain ⟨-, hstep⟩ := h (Nat.find hcheck)
  rw [htaken] at hstep
  obtain ⟨-, -, hnext⟩ := exec_checkOf_next.1 hstep
  rw [hnext, State.check_of_pend (hpend _ hm le_rfl)]
  simp [State.pend_acknowledge]

end Sys2Proof.Proofs
end

section
/-! PROOFS. The family `42_processor.md`. First the layer these proofs need: the block filter over joined and scaled
sequences (R143, R148, R149), the filter over the whole stream processed since a reset as one invariant of a state and of
that stream (R144, R147), and where a captured block is above `MAX_CODE` (R173). Then the statements O52, O21, O23, O26,
O27, O28, O29, O30, O32, O58 and O33. -/

namespace Sys2Proof.Machine

variable {s t : State} {i : Instr} {c : Config}

/-! ### The block filter over joined sequences (R143, R149) -/

/-- A window reaches no further than its newest input. -/
theorem firWindow_append {taps n : Nat} {ext : List Val} (w : List Val) (hn : taps - 1 + n < ext.length) :
    firWindow taps (ext ++ w) n = firWindow taps ext n := by
  rw [firWindow_of_length hn, firWindow_of_length (by rw [List.length_append]; omega)]
  exact List.map_congr_left fun k _ => List.getD_append _ _ _ _ (by omega)

/-- A window starts no earlier than `T - 1` inputs before its newest. -/
theorem firWindow_drop {taps n m : Nat} {ext : List Val} (hn : taps - 1 + (m + n) < ext.length) :
    firWindow taps (ext.drop m) n = firWindow taps ext (m + n) := by
  rw [firWindow_of_length hn, firWindow_of_length (by rw [List.length_drop]; omega)]
  refine List.map_congr_left fun k hk => ?_
  have hk : k < taps := List.mem_range.1 hk
  have hidx : m + (taps - 1 + n - k) = taps - 1 + (m + n) - k := by omega
  rw [List.getD_eq_getElem?_getD, List.getD_eq_getElem?_getD, List.getElem?_drop, hidx]

/-- R149 (d), of the outputs. -/
theorem firBlock_append_fst {H : List Val} (hH : H.length = c.taps - 1) (V W : List Val) :
    (firBlock c H (V ++ W)).1 = (firBlock c H V).1 ++ (firBlock c (firBlock c H V).2 W).1 := by
  rw [firBlock_snd c H V hH]
  simp only [firBlock, List.length_append, List.range_add, List.map_append, List.map_map]
  congr 1
  · refine List.map_congr_left fun n hn => ?_
    have hn : n < V.length := List.mem_range.1 hn
    rw [← List.append_assoc, firWindow_append W (by rw [List.length_append]; omega)]
  · refine List.map_congr_left fun n hn => ?_
    have hn : n < W.length := List.mem_range.1 hn
    rw [← List.drop_append_of_le_length (by simp), List.append_assoc, firWindow_drop (by simp; omega)]
    rfl

/-- R149 (d), of the delay line. -/
theorem firBlock_append_snd {H : List Val} (hH : H.length = c.taps - 1) (V W : List Val) :
    (firBlock c H (V ++ W)).2 = (firBlock c (firBlock c H V).2 W).2 := by
  rw [firBlock_snd _ _ _ hH, firBlock_snd _ _ _ (firBlock_hist_length c H V), firBlock_snd _ _ _ hH,
    ← List.drop_append_of_le_length (by simp), List.drop_drop, List.append_assoc, List.length_append]

/-! ### The block filter under exact numerics (R148, R149) -/

/-- Output `n` as the direct-form sum over the history and the block (R143, R148). -/
theorem firBlock_exact {H V : List Val} {n : Nat} (hx : c.numerics = .exact) (hc : c.coeff.length = c.taps)
    (hH : H.length = c.taps - 1) (hn : n < V.length) :
    (firBlock c H V).1[n]? =
      some (∑ k ∈ Finset.range c.taps, c.coeff.getD k 0 * (H ++ V).getD (c.taps - 1 + n - k) 0) := by
  rw [firBlock_getElem c H V n hn, dotFn_exact c hx,
    exactDot_firWindow c.coeff (H ++ V) c.taps n hc (by rw [List.length_append]; omega)]

theorem sum_getD_eq_sum (xs : List Val) : ∑ k ∈ Finset.range xs.length, xs.getD k 0 = xs.sum := by
  rw [Finset.sum_range, ← Fin.sum_univ_getElem]
  exact Finset.sum_congr rfl fun k _ => by simp

theorem exactDot_map_mul (k : Val) (a b : List Val) : exactDot a (b.map (k * ·)) = k * exactDot a b := by
  have hterms : List.zipWith (· * ·) a (b.map (k * ·)) = (List.zipWith (· * ·) a b).map (k * ·) := by
    rw [List.zipWith_map_right, List.map_zipWith]
    simp only [mul_left_comm]
  rw [exactDot, hterms, List.sum_map_mul_left, List.map_id', exactDot]

theorem firWindow_map_mul (k : Val) {taps n : Nat} {ext : List Val} (hn : taps - 1 + n < ext.length) :
    firWindow taps (ext.map (k * ·)) n = (firWindow taps ext n).map (k * ·) := by
  rw [firWindow_of_length hn, firWindow_of_length (by rwa [List.length_map]), List.map_map]
  refine List.map_congr_left fun m _ => ?_
  simpa using List.getD_map (f := (k * ·)) (l := ext) (d := 0) (n := taps - 1 + n - m)

/-- R149 (c), of the outputs, from any delay line. -/
theorem firBlock_map_mul_fst {H : List Val} (hx : c.numerics = .exact) (hH : H.length = c.taps - 1) (k : Val)
    (V : List Val) : (firBlock c (H.map (k * ·)) (V.map (k * ·))).1 = (firBlock c H V).1.map (k * ·) := by
  simp only [firBlock, List.length_map, List.map_map, ← List.map_append]
  refine List.map_congr_left fun n hn => ?_
  have hn : n < V.length := List.mem_range.1 hn
  rw [Function.comp_apply, dotFn_exact c hx, dotFn_exact c hx, firWindow_map_mul k (by rw [List.length_append]; omega),
    exactDot_map_mul]

/-- R149 (c), of the delay line. -/
theorem firBlock_map_mul_snd {H : List Val} (hH : H.length = c.taps - 1) (k : Val) (V : List Val) :
    (firBlock c (H.map (k * ·)) (V.map (k * ·))).2 = (firBlock c H V).2.map (k * ·) := by
  rw [firBlock_snd c H V hH, firBlock_snd _ _ _ (by rwa [List.length_map]), ← List.map_append, List.length_map,
    List.map_drop]

/-- Accumulating the products tap by tap, as R148's formula written out as data does, gives the sum (log 16). -/
theorem foldl_zip_eq_exactDot (a b : List Val) :
    (a.zip b).foldl (fun acc tap => acc + tap.1 * tap.2) 0 = exactDot a b := by
  rw [exactDot, List.sum_eq_foldl, ← List.map_uncurry_zip_eq_zipWith, List.foldl_map]
  rfl

/-! ### The block filter over the stream since a reset (R144) -/

/-- What the filter answers for the whole stream `u` in one block, from the delay line of a reset (R143, R240). -/
def streamFilter (c : Config) (u : List Val) : List Val × List Val := firBlock c (List.replicate (c.taps - 1) 0) u

@[simp] theorem streamFilter_length (c : Config) (u : List Val) : (streamFilter c u).1.length = u.length :=
  firBlock_length c _ u

/-- The delay line is the last `T - 1` of the stream, with zeros before its start (R144). -/
theorem streamFilter_snd (c : Config) (u : List Val) :
    (streamFilter c u).2 = (List.replicate (c.taps - 1) 0 ++ u).drop u.length :=
  firBlock_snd c _ u List.length_replicate

theorem streamFilter_append_fst (c : Config) (u v : List Val) :
    (streamFilter c (u ++ v)).1 = (streamFilter c u).1 ++ (firBlock c (streamFilter c u).2 v).1 :=
  firBlock_append_fst List.length_replicate u v

theorem streamFilter_append_snd (c : Config) (u v : List Val) :
    (streamFilter c (u ++ v)).2 = (firBlock c (streamFilter c u).2 v).2 :=
  firBlock_append_snd List.length_replicate u v

/-- The zeros of the delay line are `u[m]` for negative `m`. -/
theorem getD_zeros_append_eq_streamAt {taps n k : Nat} (u : List Val) (hk : k < taps) :
    (List.replicate (taps - 1) 0 ++ u).getD (taps - 1 + n - k) 0 = streamAt u n k := by
  rw [streamAt]
  split
  next hkn =>
    rw [List.getD_append_right _ _ _ _ (by rw [List.length_replicate]; omega), List.length_replicate]
    congr 1
    omega
  next hkn =>
    have hlt : taps - 1 + n - k < taps - 1 := by omega
    rw [List.getD_append _ _ _ _ (by rwa [List.length_replicate]), List.getD_replicate _ hlt]

/-- R144 with the default numerics: output `n` is the direct-form sum over the stream. -/
theorem streamFilter_exact {u : List Val} {n : Nat} (hx : c.numerics = .exact) (hc : c.coeff.length = c.taps)
    (hn : n < u.length) :
    (streamFilter c u).1[n]? = some (∑ k ∈ Finset.range c.taps, c.coeff.getD k 0 * streamAt u n k) := by
  rw [streamFilter, firBlock_exact hx hc List.length_replicate hn]
  congr 1
  refine Finset.sum_congr rfl fun k hk => ?_
  rw [getD_zeros_append_eq_streamAt u (Finset.mem_range.1 hk)]

/-- State `s` is what filtering the stream `u` since a reset, block by block, has come to. It asks nothing of the
configuration. -/
structure State.FiltersStream (s : State) (u : List Val) : Prop where
  /-- R144, R147. -/
  hist : s.hist = (streamFilter s.cfg u).2
  /-- While a block is handed over, it is the latest one of the stream. -/
  bufLen_le : s.phase = .emit → s.cfg.bufLen ≤ u.length
  outU : s.phase = .emit → s.outU = (u.drop (u.length - s.cfg.bufLen)).map some
  outF : s.phase = .emit → s.outF = ((streamFilter s.cfg u).1.drop (u.length - s.cfg.bufLen)).map some

theorem FreshlyReset.filtersStream (hs : FreshlyReset s) : s.FiltersStream [] := by
  obtain ⟨-, -, -, -, -, -, -, hhist, hphase, -⟩ := hs.fields
  have hemit : s.phase ≠ .emit := by rw [hphase]; decide
  exact
  { hist := by rw [hhist, streamFilter_snd]; simp
    bufLen_le := fun hp => absurd hp hemit
    outU := fun hp => absurd hp hemit
    outF := fun hp => absurd hp hemit }

/-- `COMPUTE` adds the scaled block to the stream, and block boundaries are invisible (R149 (d)). -/
theorem State.FiltersStream.filterBlock {u : List Val} (hs : s.FiltersStream u) (r : Bool) (ev : Event) :
    ((s.filterBlock r).record ev).FiltersStream (u ++ s.scaledBlock) := by
  have hdrop : (u ++ s.scaledBlock).length - s.cfg.bufLen = u.length := by simp [State.scaledBlock_length]
  constructor
  case hist => simp [streamFilter_append_snd, hs.hist]
  case bufLen_le => simp [State.scaledBlock_length]
  case outU =>
    intro _
    rw [State.record_cfg, State.filterBlock_cfg, hdrop, List.drop_left]
    rfl
  case outF =>
    intro _
    rw [State.record_cfg, State.filterBlock_cfg, hdrop, streamFilter_append_fst,
      List.drop_left' (streamFilter_length s.cfg u), ← hs.hist]
    rfl

/-- R147: only `RESET` and `COMPUTE` write the delay line, and only they write the outputs (R35). -/
theorem Taken.filtered_eq (h : Taken s i t) (hr : i ≠ .reset) (hc : i ≠ .compute) :
    t.hist = s.hist ∧ t.outU = s.outU ∧ t.outF = s.outF := by
  cases h with
  | reset => exact absurd rfl hr
  | codeRange => exact absurd rfl hc
  | compute => exact absurd rfl hc
  | write c => simp [State.writeStep_fields]
  | checkA => simp [State.check_fields]
  | checkB => simp [State.check_fields]
  | _ => exact ⟨rfl, rfl, rfl⟩

/-- R120: `EMIT`'s phase is entered by `COMPUTE` alone. -/
theorem Taken.emit_of_emit (h : Taken s i t) (hc : i ≠ .compute) (ht : t.phase = .emit) : s.phase = .emit := by
  cases h with
  | compute => exact absurd rfl hc
  | codeRange => exact absurd rfl hc
  | emit _ hp => exact hp
  | reset => cases ht
  | start => cases ht
  | write c => rwa [(s.writeStep_same c).1.1] at ht
  | capture c => obtain ⟨-, hp⟩ | ⟨-, hp⟩ := s.storeCapture_phase_cases c <;> cases hp.symm.trans ht
  | checkA => rw [State.record_phase, State.check_phase] at ht; split at ht <;> cases ht
  | checkB => rw [State.record_phase, State.check_phase] at ht; split at ht <;> cases ht
  | _ => exact ht

/-- What a step adds to the stream: the scaled block where it filters one, else nothing (R144). -/
def streamStep (i : Instr) (s t : State) : List Val := if i = .compute ∧ t.phase = .emit then s.scaledBlock else []

theorem processedStream_cons {is : List Instr} (h : exec i s = .next t) :
    processedStream (i :: is) s = streamStep i s t ++ processedStream is t := by
  rw [processedStream, h]
  rfl

/-- The outputs go on being those of the stream over any step but `RESET`, of any agent. -/
theorem exec_keeps_filtersStream {u : List Val} (h : exec i s = .next t) (hr : i ≠ .reset) (hs : s.FiltersStream u) :
    t.FiltersStream (u ++ streamStep i s t) := by
  have hcfg := exec_keeps_cfg h
  by_cases hc : i = .compute
  · subst hc
    obtain ⟨-, hp, rfl⟩ := exec_compute_next.1 h
    obtain ⟨k, -, -, hraise⟩ | ⟨r, hfilter, -⟩ := s.computeStep_cases
    · have hemit : s.computeStep.phase ≠ .emit := by rw [hraise]; simp [hp]
      rw [streamStep, if_neg fun hn => hemit hn.2, List.append_nil, hraise]
      exact { hs with }
    · rw [hfilter]
      exact hs.filterBlock r .compute
  · have htaken := exec_taken h
    obtain ⟨hhist, hU, hF⟩ := htaken.filtered_eq hr hc
    rw [streamStep, if_neg fun hn => hc hn.1, List.append_nil]
    exact
    { hist := by rw [hhist, hcfg]; exact hs.hist
      bufLen_le := fun ht => by rw [hcfg]; exact hs.bufLen_le (htaken.emit_of_emit hc ht)
      outU := fun ht => by rw [hU, hcfg]; exact hs.outU (htaken.emit_of_emit hc ht)
      outF := fun ht => by rw [hF, hcfg]; exact hs.outF (htaken.emit_of_emit hc ht) }

theorem RunsTo.filtersStream :
    ∀ {is : List Instr} {s t : State} {u : List Val}, RunsTo NotReset is s t → s.FiltersStream u →
      t.FiltersStream (u ++ processedStream is s)
  | [], _, _, _, rfl, hs => by rwa [processedStream, List.append_nil]
  | _ :: _, _, _, _, ⟨hr, _, hx, hrun⟩, hs => by
    rw [processedStream_cons hx, ← List.append_assoc]
    exact hrun.filtersStream (exec_keeps_filtersStream hx hr hs)

/-- R144 while a block is handed over, with the default numerics: its records lie at the end of the stream. -/
theorem State.FiltersStream.outputs_of_emit {u : List Val} {n : Nat} (hs : s.FiltersStream u) (hx : s.cfg.numerics = .exact)
    (hc : s.cfg.coeff.length = s.cfg.taps) (hp : s.phase = .emit) (hn : n < s.cfg.bufLen) :
    s.outU[n]? = some u[u.length - s.cfg.bufLen + n]? ∧
    s.outF[n]? = some (some (∑ k ∈ Finset.range s.cfg.taps,
      s.cfg.coeff.getD k 0 * streamAt u (u.length - s.cfg.bufLen + n) k)) := by
  have hle := hs.bufLen_le hp
  have hlt : u.length - s.cfg.bufLen + n < u.length := by omega
  rw [hs.outU hp, hs.outF hp, List.getElem?_map, List.getElem?_map, List.getElem?_drop, List.getElem?_drop,
    streamFilter_exact hx hc hlt, List.getElem?_eq_getElem hlt]
  exact ⟨rfl, rfl⟩

/-! ### The captured block against `MAX_CODE` (R173) -/

/-- The range check sees exactly the captured codes. -/
theorem State.firstAboveMax_eq_none_iff {codes : List Code} (hcap : s.cap = codes.map some)
    (hlen : codes.length = s.cfg.bufLen) : s.firstAboveMax = none ↔ ∀ c ∈ codes, c.toNat ≤ s.cfg.maxCode := by
  refine ⟨fun h c hc => ?_, State.firstAboveMax_of_cap hcap hlen⟩
  obtain ⟨k, hk, rfl⟩ := List.mem_iff_getElem.1 hc
  have hnot := List.find?_eq_none.1 h k (List.mem_range.2 (hlen ▸ hk))
  simpa [State.capCode, hcap, hk] using hnot

/-- The only fault of a state that had none. -/
theorem State.raise_of_faults_nil (hf : s.faults = []) (f : FaultRecord) : s.raise f = { s with faults := [f] } := by
  rw [State.raise, hf]
  rfl

end Sys2Proof.Machine

/-! ### The statements -/

namespace Sys2Proof.Proofs

open Sys2Proof.Machine

/-- Settles O52: at the end of the run the state is what filtering the processed stream has come to. -/
theorem theFilterSeesOneStream : Obligations.TheFilterSeesOneStream := by
  intro s t is hs hvalid hx hrun c u
  obtain ⟨-, -, hcoeff, -⟩ := (Config.valid_iff s.cfg).1 hvalid
  have hstream : t.FiltersStream u := hrun.filtersStream hs.filtersStream
  have hcfg : t.cfg = c := hrun.keeps_cfg
  rw [← hcfg]
  refine ⟨hstream.hist.trans (streamFilter_snd _ u), fun hp => ⟨hstream.bufLen_le hp, fun n hn => ?_⟩⟩
  exact hstream.outputs_of_emit (hcfg ▸ hx) (hcfg ▸ hcoeff) hp hn

/-- Settles O21: `CAPTURE` is guarded by its phase, and raises or stores by what the element holds. -/
theorem captureReadsTheElementAtJ : Obligations.CaptureReadsTheElementAtJ := by
  intro s hf
  refine ⟨fun hp => whenEnabled_refused hf (by simpa using hp), fun hp hj hlen => ?_⟩
  have hstep : exec .capture s = .next s.captureStep := exec_capture_next.2 ⟨hf, hp, hj, rfl⟩
  refine ⟨fun hread => ?_, fun c hread => ⟨(s.storeCapture c).record .capture, ?_, ?_⟩⟩
  · rw [hstep, State.captureStep, hread, State.raise_of_faults_nil hf]
    rfl
  · rw [hstep, State.captureStep, hread]
  · refine ⟨by simp [hlen, hj], fun k hk => List.getElem?_set_ne hk.symm, rfl, fun hL => if_pos hL, fun hL => if_neg hL,
      rfl, rfl, ?_⟩
    simp [SameEngine, SameSticky, SameRest]

/-- Settles O23: `COMPUTE` is guarded by its phase; the range check sees the captured codes, and raises or filters. -/
theorem computeScalesAndFiltersTheBlock : Obligations.ComputeScalesAndFiltersTheBlock := by
  intro s codes hf
  refine ⟨fun hp => whenEnabled_refused hf (by simpa using hp), fun hp hcap hlen => ?_⟩
  intro above V
  have hblock : s.scaledBlock = V := State.scaledBlock_of_cap hcap hlen
  have habove : above ↔ s.firstAboveMax ≠ none := by
    rw [Ne, State.firstAboveMax_eq_none_iff hcap hlen]
    simp [above]
  rw [habove, exec_compute_next.2 ⟨hf, hp, rfl⟩]
  obtain ⟨k, hk, hpolicy, hraise⟩ | ⟨r, hfilter, hr⟩ := s.computeStep_cases
  · rw [hraise, State.raise_of_faults_nil hf]
    exact ⟨fun _ _ => ⟨k, s.capCode k, rfl⟩, fun hruns => by simp [hk, hpolicy] at hruns⟩
  · rw [hfilter]
    refine ⟨fun hne hpolicy => ?_, fun _ => ⟨_, rfl, ?_⟩⟩
    · simp [hne, hpolicy] at hr
    · have hrange : r = true ↔ s.range = true ∨ s.firstAboveMax ≠ none := by
        obtain ⟨hnone, rfl⟩ | ⟨hne, -, rfl⟩ := hr
        · simp [hnone]
        · simp [hne]
      simp [hblock, hrange, SameEngine, SameRest]

/-- Settles O26: with `T - 1` values of history every window lies in the sequence, and the delay line is what is left of it
past its first `V.length` values. -/
theorem firBlockIsTheDirectFormSum : Obligations.FirBlockIsTheDirectFormSum := by
  intro c H V hT hc hH
  refine ⟨firBlock_length c H V, fun n hn => ?_, firBlock_hist_length c H V, fun m _ => ?_⟩
  · have hlt : c.taps - 1 + n < (H ++ V).length := by rw [List.length_append]; omega
    rw [← firWindow_of_length hlt]
    exact ⟨firBlock_getElem c H V n hn, fun hx => by rw [dotFn_exact c hx, exactDot_firWindow _ _ _ _ hc hlt]⟩
  · rw [firBlock_snd c H V hH, List.getElem?_drop]

/-- Settles O27: the windows of the second block lie in what the carried history keeps of the first. -/
theorem filteringIsContinuousAcrossBlocks : Obligations.FilteringIsContinuousAcrossBlocks :=
  fun _ _ V W _ hH => ⟨firBlock_append_fst hH V W, firBlock_append_snd hH V W⟩

/-- Settles O28: a common value, of the inputs or of the coefficients, comes out of the direct-form sum. -/
theorem filterOutputIsAWeightedMean : Obligations.FilterOutputIsAWeightedMean := by
  intro c H V n hx hT hc hH hn
  rw [firBlock_exact hx hc hH hn]
  refine ⟨fun v hsum hwindow => ?_, fun hcoeff => ?_⟩
  · congr 1
    calc ∑ k ∈ Finset.range c.taps, c.coeff.getD k 0 * (H ++ V).getD (c.taps - 1 + n - k) 0
        = ∑ k ∈ Finset.range c.taps, c.coeff.getD k 0 * v :=
          Finset.sum_congr rfl fun k hk => by rw [hwindow k (Finset.mem_range.1 hk)]
      _ = v := by rw [← Finset.sum_mul, ← hc, sum_getD_eq_sum, hsum, one_mul]
  · congr 1
    rw [Finset.sum_div]
    refine Finset.sum_congr rfl fun k hk => ?_
    rw [hcoeff, List.getD_replicate _ (Finset.mem_range.1 hk), one_div_mul_eq_div]

/-- Settles O29: scaling leaves the zero delay line as it is. -/
theorem filteringIsLinear : Obligations.FilteringIsLinear := by
  intro c V k hx zero
  have hlen : zero.length = c.taps - 1 := List.length_replicate
  have hzero : zero.map (k * ·) = zero := by simp [zero]
  constructor
  · rw [← firBlock_map_mul_fst hx hlen, hzero]
  · rw [← firBlock_map_mul_snd hlen, hzero]

/-- Settles O30: `EMIT` is guarded by its phase, and the entries at `E` are what it hands over. -/
theorem emitHandsOverRecordE : Obligations.EmitHandsOverRecordE := by
  intro s hf
  refine ⟨fun hp => whenEnabled_refused hf (by simpa using hp), fun u f hp he hu hrf => ?_⟩
  have hU : s.recordU = u := State.recordU_of_recU (by simp [State.recU, hu])
  have hF : s.recordF = f := State.recordF_of_recF (by simp [State.recF, hrf])
  refine ⟨s.emitStep, exec_emit_next.2 ⟨hf, hp, he, rfl⟩, ?_, rfl, fun hL hA => (if_pos hL).trans (by rw [hA]; rfl),
    fun hL hB => (if_pos hL).trans (by rw [hB]; rfl), fun hL => if_neg hL, rfl, rfl, ?_⟩
  · rw [State.emitStep, State.record_history, hU, hF, State.advanceEmit_history]
  · simp [State.emitStep, SameEngine, SameSticky, SameStorage, SameRest]

/-- Settles O32: of the three fields the filter writes, the delay line. -/
theorem onlyComputeAndResetWriteHist : Obligations.OnlyComputeAndResetWriteHist :=
  fun _ _ _ h hc hr => ((exec_taken h).filtered_eq hr hc).1

/-- Settles O58: the accumulation over the taps is the exact dot product, and the scaler's formula is the default's. -/
theorem exactFormulasGiveTheDefaultFunctions : Obligations.ExactFormulasGiveTheDefaultFunctions := by
  intro c code H V formulas
  have hdot : ∀ a b, dotFn { c with numerics := formulas } a b = dotFn { c with numerics := .exact } a b :=
    fun a b => foldl_zip_eq_exactDot a b
  refine ⟨rfl, ?_⟩
  simp only [firBlock, hdot]

/-- Settles O33: the row only writes the model's own result. -/
theorem firRowAnswersTheBlockFilter : Obligations.FirRowAnswersTheBlockFilter := by
  intro s H V hH hV
  refine ⟨_, exec_fir_next.2 ⟨⟨hH, hV⟩, rfl⟩, rfl, ?_⟩
  simp [SameEngine, SameSticky, SameSequencer, SameStorage]

end Sys2Proof.Proofs
end

section
/-! PROOFS. The family `43_scaler.md`. First what R170's formula gives under R5: its end points and its strict order.
Then the statements O35 and O34. -/

namespace Sys2Proof.Machine

variable {c : Config}

/-- R5: `N ≤ 16`, so a code can carry `MAX_CODE`. -/
theorem Config.maxCode_lt_of_valid (hv : c.valid = true) : c.maxCode < 2 ^ 16 := by
  obtain ⟨-, -, -, ⟨-, hwidth⟩, ⟨-, hmax⟩, -⟩ := (Config.valid_iff c).1 hv
  have hpow : 2 ^ c.codeWidth ≤ 2 ^ 16 := Nat.pow_le_pow_right two_pos hwidth
  omega

theorem Config.maxCode_pos_of_valid (hv : c.valid = true) : 0 < (c.maxCode : Val) := by
  obtain ⟨-, -, -, -, ⟨hone, -⟩, -⟩ := (Config.valid_iff c).1 hv
  exact Nat.cast_pos.2 hone

theorem Config.vref_pos_of_valid (hv : c.valid = true) : 0 < c.vref := by
  obtain ⟨-, -, -, -, -, hvref⟩ := (Config.valid_iff c).1 hv
  exact hvref

/-- R171: the lower end point. -/
theorem scaleFn_zero (hx : c.numerics = .exact) : scaleFn c 0#16 = 0 := by
  simp [scaleFn_exact c hx]

/-- R171: the upper end point. -/
theorem scaleFn_maxCode (hv : c.valid = true) (hx : c.numerics = .exact) :
    scaleFn c (BitVec.ofNat 16 c.maxCode) = c.vref := by
  rw [scaleFn_exact c hx, BitVec.toNat_ofNat, Nat.mod_eq_of_lt (Config.maxCode_lt_of_valid hv)]
  exact mul_div_cancel_left₀ c.vref (Config.maxCode_pos_of_valid hv).ne'

/-- R172: strict, because `VREF` and `MAX_CODE` are positive. -/
theorem scaleFn_lt_scaleFn (hv : c.valid = true) (hx : c.numerics = .exact) {a b : Code} (h : a.toNat < b.toNat) :
    scaleFn c a < scaleFn c b := by
  rw [scaleFn_exact c hx, scaleFn_exact c hx]
  have hmul : (a.toNat : Val) * c.vref < (b.toNat : Val) * c.vref :=
    mul_lt_mul_of_pos_right (Nat.cast_lt.2 h) (Config.vref_pos_of_valid hv)
  exact div_lt_div_of_pos_right hmul (Config.maxCode_pos_of_valid hv)

/-- R172: codes in order are equal or strictly in order. -/
theorem scaleFn_le_scaleFn (hv : c.valid = true) (hx : c.numerics = .exact) {a b : Code} (h : a.toNat ≤ b.toNat) :
    scaleFn c a ≤ scaleFn c b := by
  obtain hlt | heq := Nat.lt_or_eq_of_le h
  · exact (scaleFn_lt_scaleFn hv hx hlt).le
  · rw [BitVec.eq_of_toNat_eq heq]

end Sys2Proof.Machine

/-! ### The statements -/

namespace Sys2Proof.Proofs

open Sys2Proof.Machine

/-- Settles O35: the end points of the formula, and its order from that of the codes. -/
theorem scalerEndPointsAndMonotonicity : Obligations.ScalerEndPointsAndMonotonicity :=
  fun _ hv hx => ⟨scaleFn_zero hx, scaleFn_maxCode hv hx, fun _ _ => scaleFn_le_scaleFn hv hx,
    fun _ _ => scaleFn_lt_scaleFn hv hx⟩

/-- Settles O34: the row only writes the model's own result. -/
theorem scaleRowAnswersTheVoltage : Obligations.ScaleRowAnswersTheVoltage := by
  intro s c hc
  refine ⟨_, exec_scale_next.2 ⟨decide_eq_true hc, rfl⟩, rfl, fun hx _ => ?_, ?_⟩
  · rw [State.answer_fnResult, scaleFn_exact s.cfg hx]
  · simp [SameEngine, SameSticky, SameSequencer, SameStorage]

end Sys2Proof.Proofs
end

section
/-! PROOFS. The family `44_register_bus.md`. First the layer these proofs need: what recording a step and clearing the sticky
flags leave as before, the two clear bits as numbers (R43), and that whatever key the bus carries, its step is at most a clear
of sticky flags (R188). Then the statements O42, O40, O38, O39 and O41. -/

namespace Sys2Proof.Machine

variable {s : State}

/-! ### What a bus step leaves as before (R180, R185) -/

/-- R77: an entry of the history is no change of the block. -/
theorem State.record_same (s : State) (ev : Event) : SameBlock s (s.record ev) := by
  simp [SameBlock, SameEngine, SameSticky, SameSequencer, SameStorage, SameRest]

/-- R185: of the block a recorded clear writes the sticky flags only. -/
theorem State.record_ctrlClear_same (s : State) (w : Word) (ev : Event) :
    SameEngine s ((s.ctrlClear w).record ev) ∧ SameSequencer s ((s.ctrlClear w).record ev) ∧
      SameStorage s ((s.ctrlClear w).record ev) ∧ SameRest s ((s.ctrlClear w).record ev) ∧
      ((s.ctrlClear w).record ev).freeCtr = s.freeCtr := by
  simp [SameEngine, SameSequencer, SameStorage, SameRest]

/-! ### The clear bits of `CTRL` (R43, R185) -/

theorem ctrlOvrClr_iff {w : Word} : ctrlOvrClr w = true ↔ w.toNat % 2 = 1 := by
  rw [ctrlOvrClr, BitVec.getLsbD, Nat.testBit_eq_decide_div_mod_eq, decide_eq_true_iff, Nat.pow_zero, Nat.div_one]

theorem ctrlRangeClr_iff {w : Word} : ctrlRangeClr w = true ↔ w.toNat / 2 % 2 = 1 := by
  rw [ctrlRangeClr, BitVec.getLsbD, Nat.testBit_eq_decide_div_mod_eq, decide_eq_true_iff, Nat.pow_one]

/-- Write 1 to clear: the flag after a write whose clear bit is `clr`. -/
theorem and_not_eq_ite {flag clr : Bool} {p : Prop} [Decidable p] (h : clr = true ↔ p) :
    (flag && !clr) = if p then false else flag := by
  cases clr <;> simp [← h]

/-- Without a clear bit nothing is cleared. -/
theorem State.ctrlClear_zero (s : State) : s.ctrlClear 0#32 = s := by
  have hovr : (s.ovr && !ctrlOvrClr 0#32) = s.ovr := Bool.and_true _
  have hrange : (s.range && !ctrlRangeClr 0#32) = s.range := Bool.and_true _
  rw [State.ctrlClear, hovr, hrange]

/-- A clear sets no flag. -/
theorem State.flag_of_ctrlClear (s : State) (w : Word) :
    ((s.ctrlClear w).ovr = true → s.ovr = true) ∧ ((s.ctrlClear w).range = true → s.range = true) := by
  rw [State.ctrlClear_ovr, State.ctrlClear_range]
  exact ⟨Bool.and_elim_left, Bool.and_elim_left⟩

/-! ### Whatever the bus carries (R188) -/

/-- A bus step that only records itself is a clear of no flag. -/
theorem clears_of_records {i : Instr} {ev : Event} (h : exec i s = .next (s.record ev)) :
    ∃ w ev, exec i s = .next ((s.ctrlClear w).record ev) :=
  ⟨0#32, ev, by rw [State.ctrlClear_zero, h]⟩

/-- By the rows of R79: every bus step completes, and does no more than the `CTRL` write can. -/
theorem exec_decodeBus (hf : s.faults = []) (b : BitVec 41) :
    ∃ w ev, exec (decodeBus b) s = .next ((s.ctrlClear w).record ev) := by
  obtain ⟨we, a, w, rfl⟩ := Laws.exists_eq_busBundle b
  rw [Laws.decodeBus_bundle]
  split_ifs
  · exact clears_of_records (exec_rdStatus_next.2 ⟨hf, rfl⟩)
  · exact clears_of_records (exec_rdSeq_next.2 ⟨hf, rfl⟩)
  · exact clears_of_records (exec_rdCtrl_next.2 ⟨hf, rfl⟩)
  · exact clears_of_records (exec_rdCfg_next.2 ⟨hf, rfl⟩)
  · exact clears_of_records (exec_wrStatus_next.2 ⟨hf, rfl⟩)
  · exact clears_of_records (exec_wrSeq_next.2 ⟨hf, rfl⟩)
  · exact ⟨w, _, exec_wrCtrl_next.2 ⟨hf, rfl⟩⟩
  · exact clears_of_records (exec_wrCfg_next.2 ⟨hf, rfl⟩)
  · exact clears_of_records (exec_busErr_next.2 ⟨hf, rfl⟩)

end Sys2Proof.Machine

/-! ### The statements -/

namespace Sys2Proof.Proofs

open Sys2Proof.Machine

/-- Settles O42: whatever the bundle, its step is a clear of sticky flags, taken where the bundle is off the schedule. -/
theorem theBusCannotTouchTheDataPath : Obligations.TheBusCannotTouchTheDataPath := by
  intro s b rest hf hs
  obtain ⟨w, ev, hx⟩ := exec_decodeBus (s := { s with sched := rest }) hf b
  obtain ⟨hengine, hsequencer, hstorage, ⟨hcfg, hfaults, hrefusals, hsched, -⟩, -⟩ :=
    State.record_ctrlClear_same { s with sched := rest } w ev
  obtain ⟨hovr, hrange⟩ := State.flag_of_ctrlClear { s with sched := rest } w
  refine ⟨_, ?_, hengine, hsequencer, hstorage, hcfg, hfaults.trans hf, hrefusals, hsched, hovr, hrange⟩
  rw [step_of_decode hs rfl, State.popSched_of_cons hs, hx]

/-- Settles O40: each flag is kept where its clear bit is 0. -/
theorem ctrlWriteClearsTheChosenFlags : Obligations.CtrlWriteClearsTheChosenFlags := by
  intro s w hf
  obtain ⟨hengine, hsequencer, hstorage, hrest, hfree⟩ :=
    s.record_ctrlClear_same w (.busWr (busBundle true 0x08#8 w) (okay 0#32))
  exact ⟨_, exec_wrCtrl_next.2 ⟨hf, rfl⟩, and_not_eq_ite ctrlOvrClr_iff, and_not_eq_ite ctrlRangeClr_iff, hengine,
    hsequencer, hstorage, hrest, hfree, rfl⟩

/-- Settles O38: a read answers from the state it meets and only records itself. -/
theorem registerReadsAnswerAndChangeNothing : Obligations.RegisterReadsAnswerAndChangeNothing :=
  fun s _ hf =>
    ⟨⟨_, exec_rdStatus_next.2 ⟨hf, rfl⟩, s.record_same _, rfl⟩, ⟨_, exec_rdSeq_next.2 ⟨hf, rfl⟩, s.record_same _, rfl⟩,
      ⟨_, exec_rdCtrl_next.2 ⟨hf, rfl⟩, s.record_same _, rfl⟩, ⟨_, exec_rdCfg_next.2 ⟨hf, rfl⟩, s.record_same _, rfl⟩⟩

/-- Settles O39: a write to a read-only register only records itself. -/
theorem writesToReadOnlyRegistersAreIgnored : Obligations.WritesToReadOnlyRegistersAreIgnored :=
  fun s _ hf =>
    ⟨⟨_, exec_wrStatus_next.2 ⟨hf, rfl⟩, s.record_same _, rfl⟩, ⟨_, exec_wrSeq_next.2 ⟨hf, rfl⟩, s.record_same _, rfl⟩,
      ⟨_, exec_wrCfg_next.2 ⟨hf, rfl⟩, s.record_same _, rfl⟩⟩

/-- Settles O41: an unmapped access only records itself, as a read or as a write. -/
theorem unmappedAccessAnswersErr : Obligations.UnmappedAccessAnswersErr :=
  fun s _ _ hf =>
    ⟨⟨_, exec_busErr_next.2 ⟨hf, rfl⟩, s.record_same _, rfl⟩, ⟨_, exec_busErr_next.2 ⟨hf, rfl⟩, s.record_same _, rfl⟩⟩

end Sys2Proof.Proofs
end

section
/-! PROOFS. The family `45_output_port.md`. First the layer these proofs need: a step against the Engine and against the
sequencer (R101, R120), a block on its way from its pending buffer to `COMPUTE` (R141, R202), the codes acquired since a reset
and where the buffers hold them, the records against the stream processed (R145), how that stream keeps up with the acquired
one under the deadline (R245, R246), and the formatter's rounding (R205). Then the statements O51, O53 and O59. -/

namespace Sys2Proof.Machine

variable {s t : State} {i : Instr} {x : Buf} {h es : List Event} {u : List Val} {m m' : Nat → Option Code}

/-! ### Where the Engine stores, and where it does not (R101) -/

/-- A step that acquires no code: it leaves both buffers, `ACTIVE` and `FILL`, it sets no pending flag, and the history shows
no more codes and no more fills than before. -/
structure EngineKept (s t : State) : Prop where
  buf : ∀ y, t.buf y = s.buf y
  active : t.active = s.active
  fill : t.fill = s.fill
  pend : ∀ y, t.pend y = true → s.pend y = true
  acquired : acquiredCodes t.history = acquiredCodes s.history
  ready : readyEvents t.history = readyEvents s.history

theorem EngineKept.pend_eq_false (hk : EngineKept s t) (hx : s.pend x = false) : t.pend x = false :=
  Bool.eq_false_of_not_eq_true fun ht => by cases hx.symm.trans (hk.pend x ht)

/-- An entry that is none of a `WRITE` acquires nothing. -/
theorem acquiredCodes_of_not_write {e : Event} (he : ∀ c r, e ≠ .write c r) (h : List Event) :
    acquiredCodes (e :: h) = acquiredCodes h := by
  cases e with
  | write c r => exact absurd rfl (he c r)
  | _ => rfl

/-- To the Engine a step is the whole `WRITE` of a code of the port's width, or acquires nothing. -/
theorem Taken.write_or_keeps (ht : Taken s i t) (hr : i ≠ .reset) :
    (∃ c, i = .write c ∧ codeFits s.cfg.codeWidth c = true ∧ t = s.writeStep c) ∨ EngineKept s t := by
  by_cases hw : ∃ c, i = .write c
  · obtain ⟨c, rfl⟩ := hw
    cases ht with
    | write _ _ hc => exact .inl ⟨c, rfl, hc, rfl⟩
    | refused => exact .inr ⟨fun y => s.buf_refuse y _, rfl, rfl, fun y => by rw [s.pend_refuse]; exact id, rfl, rfl⟩
    | busRd _ _ _ _ hi => simp at hi
    | busWr _ _ _ _ hi => simp at hi
  · have hnot := not_exists.1 hw
    obtain ⟨hbuf, hactive, hfill, -⟩ := ht.engine_eq hr hnot
    have hpend : ∀ y, t.pend y = true → s.pend y = true := fun y hy => by
      obtain hkeep | ⟨-, hfills, -⟩ | ⟨hclear, -⟩ := ht.pend_cases hr y
      · exact hkeep ▸ hy
      · exact absurd hfills (not_fills_of_not_write hnot)
      · cases hclear.symm.trans hy
    obtain hhist | ⟨e, hhist, he⟩ := ht.history_cases hnot
    · exact .inr ⟨hbuf, hactive, hfill, hpend, by rw [hhist], by rw [hhist]⟩
    · exact .inr ⟨hbuf, hactive, hfill, hpend, by rw [hhist, acquiredCodes_of_not_write he],
        by rw [hhist, (events_of_not_write he _).1]⟩

/-! ### Where the sequencer stands (R120) -/

/-- Only the step of its phase moves the sequencer. -/
theorem sequencer_eq_of_ne_stepOfPhase (hx : exec i s = .next t) (hr : i ≠ .reset) (hi : i ≠ stepOfPhase s.phase) :
    SameSequencer s t := by
  refine (exec_taken hx).sequencer_eq hr fun hmem => hi ?_
  obtain rfl | rfl | rfl | rfl | rfl | rfl := mem_sequencerSteps_iff.1 hmem
  · obtain ⟨-, hp, -⟩ := exec_start_next.1 hx
    rw [hp, stepOfPhase]
  · obtain ⟨-, hp, -⟩ := exec_checkA_next.1 hx
    rw [hp, stepOfPhase]
  · obtain ⟨-, hp, -⟩ := exec_checkB_next.1 hx
    rw [hp, stepOfPhase]
  · obtain ⟨-, hp, -⟩ := exec_capture_next.1 hx
    rw [hp, stepOfPhase]
  · obtain ⟨-, hp, -⟩ := exec_compute_next.1 hx
    rw [hp, stepOfPhase]
  · obtain ⟨-, hp, -⟩ := exec_emit_next.1 hx
    rw [hp, stepOfPhase]

/-- Only `CAPTURE` and `RESET` write `CAP` (R34). -/
theorem Taken.cap_eq (ht : Taken s i t) (hr : i ≠ .reset) (hi : i ≠ .capture) : t.cap = s.cap := by
  cases ht with
  | reset => exact absurd rfl hr
  | capture => exact absurd rfl hi
  | unwritten => exact absurd rfl hi
  | write c => simp [State.writeStep_fields]
  | checkA => simp [State.check_fields]
  | checkB => simp [State.check_fields]
  | _ => rfl

/-- The codes of buffer `x` are with the sequencer and not yet filtered: it is capturing them or has captured them. -/
def State.reading (s : State) (x : Buf) : Prop := (s.phase = .capture ∨ s.phase = .compute) ∧ s.cur = x

theorem State.reading_congr (hseq : SameSequencer s t) : t.reading x ↔ s.reading x := by
  obtain ⟨hphase, hcur, -⟩ := hseq
  rw [State.reading, State.reading, hphase, hcur]

theorem State.not_reading_of_phase (hp : s.phase ∉ [Phase.capture, .compute]) : ¬ s.reading x :=
  fun ⟨hreading, _⟩ => hp (by simpa using hreading)

/-- A check has a buffer read by acknowledging its condition (R122, R123). -/
theorem State.reading_check {y : Buf} (hy : (s.check y (phaseAfterLast y)).reading x) : s.pend x = true ∧ x = y := by
  obtain ⟨hpend, hcheck⟩ | ⟨-, hcheck⟩ := s.check_cases y (phaseAfterLast y) <;> rw [hcheck] at hy
  · obtain rfl : y = x := hy.2
    exact ⟨hpend, rfl⟩
  · exact absurd hy (State.not_reading_of_phase (by cases y <;> simp [phaseAfterLast]))

/-- The sequencer comes to read a buffer by the check of its condition, and in no other way (R120). -/
theorem Taken.reading_cases (ht : Taken s i t) (hr : i ≠ .reset) (hx : t.reading x) :
    s.reading x ∨ (s.pend x = true ∧ i = checkOf x) := by
  cases ht with
  | reset => exact absurd rfl hr
  | write c => exact .inl ((State.reading_congr (s.writeStep_same c).1).1 hx)
  | start => exact absurd hx (State.not_reading_of_phase (by simp))
  | checkA => obtain ⟨hpend, rfl⟩ := State.reading_check (y := .A) hx; exact .inr ⟨hpend, rfl⟩
  | checkB => obtain ⟨hpend, rfl⟩ := State.reading_check (y := .B) hx; exact .inr ⟨hpend, rfl⟩
  | capture c _ hp => exact .inl ⟨.inl hp, hx.2⟩
  | compute => exact absurd hx (State.not_reading_of_phase (by simp))
  | emit =>
    refine absurd hx (State.not_reading_of_phase ?_)
    rw [State.emitStep, State.record_phase, State.advanceEmit_phase]
    split
    · cases s.cur <;> decide
    · decide
  | _ => exact .inl hx

/-! ### A block on its way from its buffer to `COMPUTE` (R141, R202) -/

/-- The block `m` is on its way: buffer `x` is pending and holds it, or it is being captured, with the elements from `J` on
still in the buffer, or `COMPUTE` finds it captured. -/
inductive State.Conveys (s : State) (x : Buf) (m : Nat → Option Code) : Prop
  | pending (hpend : s.pend x = true) (hreading : ¬ s.reading x) (hread : ∀ k, k < s.cfg.bufLen → (s.buf x).read k = m k)
  | capturing (hpend : s.pend x = false) (hphase : s.phase = .capture) (hcur : s.cur = x)
      (hcap : ∀ k, k < s.j → s.cap[k]? = some (m k))
      (hread : ∀ k, s.j ≤ k → k < s.cfg.bufLen → (s.buf x).read k = m k)
  | captured (hpend : s.pend x = false) (hphase : s.phase = .compute) (hcur : s.cur = x)
      (hcap : ∀ k, k < s.cfg.bufLen → s.cap[k]? = some (m k))

/-- A block on its way is with its pending condition or with the sequencer. -/
theorem State.Conveys.pend_or_reading (hm : s.Conveys x m) : s.pend x = true ∨ s.reading x := by
  cases hm with
  | pending hpend => exact .inl hpend
  | capturing _ hphase hcur => exact .inr ⟨.inl hphase, hcur⟩
  | captured _ hphase hcur => exact .inr ⟨.inr hphase, hcur⟩

/-- A block is the codes at the indices of a buffer. -/
theorem State.Conveys.congr (hs : s.Conveys x m) (hj : s.phase = .capture → s.j < s.cfg.bufLen)
    (hm : ∀ k, k < s.cfg.bufLen → m k = m' k) : s.Conveys x m' := by
  cases hs with
  | pending hpend hreading hread => exact .pending hpend hreading fun k hk => (hread k hk).trans (hm k hk)
  | capturing hpend hphase hcur hcap hread =>
    exact .capturing hpend hphase hcur (fun k hk => (hcap k hk).trans (congrArg _ (hm k (hk.trans (hj hphase)))))
      fun k hjk hk => (hread k hjk hk).trans (hm k hk)
  | captured hpend hphase hcur hcap =>
    exact .captured hpend hphase hcur fun k hk => (hcap k hk).trans (congrArg _ (hm k hk))

/-- The acknowledge of a pending condition takes its block into the capture (R122, R123). -/
theorem State.Conveys.acknowledge (hread : ∀ k, k < s.cfg.bufLen → (s.buf x).read k = m k) (ev : Event) :
    ((s.acknowledge x).record ev).Conveys x m := by
  refine .capturing ?_ rfl rfl nofun ?_
  · simp [State.pend_acknowledge]
  · simpa using fun k => hread k

/-- R141: `CAPTURE` takes element `J` of the block out of the buffer, and after the last one `COMPUTE` finds it whole. -/
theorem State.Conveys.storeCapture (hs : s.Inv) (hpend : s.pend x = false) (hphase : s.phase = .capture) (hcur : s.cur = x)
    (hcap : ∀ k, k < s.j → s.cap[k]? = some (m k)) (hread : ∀ k, s.j ≤ k → k < s.cfg.bufLen → (s.buf x).read k = m k)
    {c : Code} (hc : (s.buf s.cur).read s.j = some c) (ev : Event) : ((s.storeCapture c).record ev).Conveys x m := by
  have hj := hs.j_lt hphase
  have hcap' : ∀ k, k < s.j + 1 → (s.cap.set s.j (some c))[k]? = some (m k) := by
    intro k hk
    obtain hlt | rfl := Nat.lt_succ_iff_lt_or_eq.1 hk
    · rw [List.getElem?_set_ne hlt.ne', hcap k hlt]
    · rw [List.getElem?_set_self (hs.cap_len ▸ hj), ← hread _ le_rfl hj, ← hcur, hc]
  obtain ⟨hL, hp⟩ | ⟨-, hp⟩ := s.storeCapture_phase_cases c
  · exact .captured (by simpa using hpend) hp hcur fun k hk => hcap' k (hL ▸ hk)
  · exact .capturing (by simpa using hpend) hp hcur hcap' fun k hjk hk => by
      simpa using hread k (Nat.le_of_succ_le hjk) hk

/-- A `WRITE` that does not meet the `corrupt` condition changes no element that is still to be captured, and fills no
buffer that is being captured. -/
theorem State.Conveys.writeStep (hs : s.Inv) (hno : ¬ Corrupts s) (hx : s.Conveys x m)
    (hdone : s.phase = .compute → s.cur = x → x ≠ s.active) (c : Code) :
    (s.writeStep c).Conveys x m := by
  obtain ⟨-, -, -, hp, hcur', hj, hcap', -⟩ := s.writeStep_fields c
  obtain ⟨hpendActive, hcapturing⟩ := not_or.1 hno
  cases hx with
  | pending hpend hreading hread =>
    have hne : x ≠ s.active := by rintro rfl; exact hpendActive hpend
    refine .pending ?_ ?_ fun k hk => ?_
    · rw [State.pend_writeStep, if_neg fun hx => hne hx.1, hpend]
    · rwa [State.reading_congr (s.writeStep_same c).1]
    · rw [State.read_writeStep, if_neg fun hx => hne hx.1]
      exact hread k (s.writeStep_cfg c ▸ hk)
  | capturing hpend hphase hcur hcap hread =>
    have hfill : x = s.active → s.fill < s.j := fun hx => by
      by_contra hle
      exact hcapturing ⟨hphase, hcur.trans hx, Nat.le_of_not_lt hle⟩
    have hjL := hs.j_lt hphase
    refine .capturing ?_ (hp.trans hphase) (hcur'.trans hcur) (by rwa [hj, hcap']) fun k hjk hk => ?_
    · rw [State.pend_writeStep, if_neg, hpend]
      rintro ⟨hx, hL⟩
      have hlt := hfill hx
      omega
    · rw [hj] at hjk
      rw [State.read_writeStep, if_neg]
      · exact hread k hjk (s.writeStep_cfg c ▸ hk)
      · rintro ⟨hx, rfl⟩
        exact absurd (hfill hx) (Nat.not_lt.2 hjk)
  | captured hpend hphase hcur hcap =>
    refine .captured ?_ (hp.trans hphase) (hcur'.trans hcur) (by rwa [State.writeStep_cfg, hcap'])
    rw [State.pend_writeStep, if_neg fun hx => hdone hphase hcur hx.1, hpend]

/-- Where `COMPUTE` is due, every step that does not lead to `EMIT` leaves the sequencer and what it has captured; a
`COMPUTE` among them raises (R142). -/
theorem exec_keeps_captured (hx : exec i s = .next t) (hr : i ≠ .reset) (hp : s.phase = .compute) (ht : t.phase ≠ .emit) :
    SameSequencer s t ∧ t.cap = s.cap := by
  by_cases hi : i = .compute
  · subst hi
    obtain ⟨-, -, rfl⟩ := exec_compute_next.1 hx
    obtain ⟨k, -, -, hraise⟩ | ⟨r, hfilter, -⟩ := s.computeStep_cases
    · rw [hraise]
      exact ⟨⟨rfl, rfl, rfl, rfl⟩, rfl⟩
    · exact absurd (by rw [hfilter]; rfl) ht
  · refine ⟨sequencer_eq_of_ne_stepOfPhase hx hr (by rwa [hp]), (exec_taken hx).cap_eq hr ?_⟩
    rintro rfl
    obtain ⟨-, hcapture, -⟩ := exec_capture_next.1 hx
    cases hp.symm.trans hcapture

/-- The block goes on its way over every step but `RESET`, of any agent, that does not meet the `corrupt` condition; where
`COMPUTE` is due on it, as long as the block is not filtered and its buffer is not the one being filled. -/
theorem exec_keeps_conveys (hx : exec i s = .next t) (hr : i ≠ .reset) (hs : s.Inv) (hno : NoOverrun s i)
    (hdone : s.phase = .compute → s.cur = x → x ≠ s.active ∧ t.phase ≠ .emit) (hm : s.Conveys x m) : t.Conveys x m := by
  have hcfg := exec_keeps_cfg hx
  obtain ⟨c, rfl, -, rfl⟩ | hkept := (exec_taken hx).write_or_keeps hr
  · exact hm.writeStep hs (hno ⟨c, rfl⟩) (fun hp hcur => (hdone hp hcur).1) c
  cases hm with
  | pending hpend hreading hread =>
    by_cases hi : i = checkOf x
    · subst hi
      obtain ⟨-, -, rfl⟩ := exec_checkOf_next.1 hx
      rw [State.check_of_pend hpend]
      exact .acknowledge hread _
    · refine .pending (exec_keeps_pend hx hr hi hpend) (fun ht => ?_) (by rwa [hkept.buf, hcfg])
      obtain hs' | ⟨-, hi'⟩ := (exec_taken hx).reading_cases hr ht
      exacts [hreading hs', hi hi']
  | capturing hpend hphase hcur hcap hread =>
    by_cases hi : i = .capture
    · subst hi
      obtain ⟨-, -, hj, rfl⟩ := exec_capture_next.1 hx
      obtain ⟨hnone, -⟩ | ⟨c, hc, hstore⟩ := s.captureStep_cases
      · exact absurd hnone (hs.capture_full hphase _ hj)
      · rw [hstore]
        exact .storeCapture hs hpend hphase hcur hcap hread hc _
    · obtain ⟨hp, hcur', hj, -⟩ := sequencer_eq_of_ne_stepOfPhase hx hr (by rwa [hphase])
      have hcap' := (exec_taken hx).cap_eq hr hi
      exact .capturing (hkept.pend_eq_false hpend) (hp.trans hphase) (hcur'.trans hcur) (by rwa [hj, hcap'])
        (by rwa [hj, hcfg, hkept.buf])
  | captured hpend hphase hcur hcap =>
    obtain ⟨⟨hp, hcur', -⟩, hcap'⟩ := exec_keeps_captured hx hr hphase (hdone hphase hcur).2
    exact .captured (hkept.pend_eq_false hpend) (hp.trans hphase) (hcur'.trans hcur) (by rwa [hcfg, hcap'])

/-- Where `COMPUTE` is due on the buffer, its block is captured whole and its condition is not pending. -/
theorem State.Conveys.captured_of_compute (hm : s.Conveys x m) (hp : s.phase = .compute) (hcur : s.cur = x) :
    s.pend x = false ∧ ∀ k, k < s.cfg.bufLen → s.cap[k]? = some (m k) := by
  cases hm with
  | pending _ hreading => exact absurd ⟨.inr hp, hcur⟩ hreading
  | capturing _ hcapture => cases hcapture.symm.trans hp
  | captured hpend _ _ hcap => exact ⟨hpend, hcap⟩

/-- As long as its condition is pending or its buffer is being captured, the block goes on its way. -/
theorem RunsTo.conveys : ∀ {is : List Instr} {s t : State},
    RunsTo (fun u i => NotReset u i ∧ NoOverrun u i ∧ (u.pend x = true ∨ (u.phase = .capture ∧ u.cur = x))) is s t →
      s.Inv → s.Conveys x m → t.Conveys x m
  | [], _, _, rfl, _, hm => hm
  | _ :: _, _, _, ⟨⟨hr, hno, hon⟩, _, hx, hrun⟩, hs, hm => by
    refine hrun.conveys (exec_keeps_inv hx hs) (exec_keeps_conveys hx hr hs hno (fun hp hcur => ?_) hm)
    obtain hpend | ⟨hcapture, -⟩ := hon
    · cases hpend.symm.trans (hm.captured_of_compute hp hcur).1
    · cases hcapture.symm.trans hp

/-! ### What more entries add to what a history shows (R77) -/

theorem acquiredCodes_append (es h : List Event) : acquiredCodes (es ++ h) = acquiredCodes h ++ acquiredCodes es := by
  induction es with
  | nil => rw [List.nil_append, acquiredCodes, List.append_nil]
  | cons e es ih => cases e <;> simp [acquiredCodes, ih]

theorem readyEvents_append (es h : List Event) : readyEvents (es ++ h) = readyEvents es ++ readyEvents h := by
  induction es with
  | nil => rfl
  | cons e es ih =>
    cases e with
    | write c r => cases r <;> simp [readyEvents, ih]
    | _ => simpa [readyEvents] using ih

theorem recordsOf_append (es h : List Event) : recordsOf (es ++ h) = recordsOf h ++ recordsOf es := by
  induction es with
  | nil => rw [List.nil_append, recordsOf, List.append_nil]
  | cons e es ih => cases e <;> simp [recordsOf, ih]

/-- Every `WRITE` acquires one code. -/
theorem acquiredCodes_length (h : List Event) : (acquiredCodes h).length = writeCount h := by
  induction h with
  | nil => rfl
  | cons e h ih => cases e <;> simp [acquiredCodes, writeCount, ih]

/-- Only `EMIT` hands over a record (R145). -/
theorem Taken.recordsOf_history (ht : Taken s i t) (hi : i ≠ .emit) : recordsOf t.history = recordsOf s.history := by
  cases ht with
  | emit => exact absurd rfl hi
  | write c => obtain ⟨-, -, -, -, hhist⟩ | ⟨-, -, -, -, hhist⟩ := s.writeStep_swap c <;> rw [hhist] <;> rfl
  | checkA => simp [State.check_fields, recordsOf]
  | checkB => simp [State.check_fields, recordsOf]
  | _ => rfl

theorem EngineKept.acquiredCodes_since (hk : EngineKept s t) (hes : t.history = es ++ s.history) (h : List Event) :
    acquiredCodes (es ++ h) = acquiredCodes h := by
  have hacquired := hk.acquired
  rw [hes, acquiredCodes_append, List.append_right_eq_self] at hacquired
  rw [acquiredCodes_append, hacquired, List.append_nil]

theorem EngineKept.readyEvents_since (hk : EngineKept s t) (hes : t.history = es ++ s.history) (h : List Event) :
    readyEvents (es ++ h) = readyEvents h := by
  have hready := hk.ready
  rw [hes, readyEvents_append, List.append_left_eq_self] at hready
  rw [readyEvents_append, hready, List.nil_append]

/-- The two ways a `WRITE` goes, with what it adds to the history (R101). -/
theorem State.writeStep_since {c : Code} (hes : (s.writeStep c).history = es ++ s.history) :
    (s.fill + 1 = s.cfg.bufLen ∧ (s.writeStep c).fill = 0 ∧ (s.writeStep c).active = s.active.other ∧
      es = [.write c (readyOf s.active)]) ∨
    (s.fill + 1 ≠ s.cfg.bufLen ∧ (s.writeStep c).fill = s.fill + 1 ∧ (s.writeStep c).active = s.active ∧
      es = [.write c .none]) := by
  obtain ⟨hL, hfill, -, hactive, hhist⟩ | ⟨hL, hfill, -, hactive, hhist⟩ := s.writeStep_swap c
  · exact .inl ⟨hL, hfill, hactive, List.append_cancel_right (hes.symm.trans hhist)⟩
  · exact .inr ⟨hL, hfill, hactive, List.append_cancel_right (hes.symm.trans hhist)⟩

/-! ### The codes acquired since a reset, and where the buffers hold them (R101, R107) -/

/-- How many of the codes acquired since belong to a fill: `L` to each that `h`, the history since, shows. -/
def State.filledCodes (s : State) (h : List Event) : Nat := (readyEvents h).length * s.cfg.bufLen

theorem State.filledCodes_nil (s : State) : s.filledCodes [] = 0 := Nat.zero_mul _

/-- Where `h` is the history since a reset: the active buffer holds the codes of the fill to come, up to `FILL`, and the other
one those of the latest fill, if there was one. -/
structure State.HoldsAcquired (s : State) (h : List Event) : Prop where
  counts : s.CountsSince h
  current : ∀ k, k < s.fill → (s.buf s.active).read k = (acquiredCodes h)[s.filledCodes h + k]?
  latest : ∀ n, n + s.cfg.bufLen = s.filledCodes h → ∀ k, k < s.cfg.bufLen →
    (s.buf s.active.other).read k = (acquiredCodes h)[n + k]?

theorem State.HoldsAcquired.length (hs : s.HoldsAcquired h) : (acquiredCodes h).length = s.filledCodes h + s.fill := by
  rw [acquiredCodes_length, hs.counts.writes, State.filledCodes]

theorem FreshlyReset.holdsAcquired (hs : FreshlyReset s) (hL : 0 < s.cfg.bufLen) : s.HoldsAcquired [] := by
  obtain ⟨-, -, hfill, -⟩ := hs.fields
  refine ⟨hs.countsSince, fun k hk => ?_, fun n hn => ?_⟩
  · rw [hfill] at hk
    exact absurd hk (Nat.not_lt_zero k)
  · rw [s.filledCodes_nil] at hn
    omega

/-- A `WRITE` acquires one code, which the active buffer holds at `FILL`. -/
theorem State.HoldsAcquired.read_writeStep_active (hs : s.HoldsAcquired h) (c : Code) {k : Nat} (hk : k < s.fill + 1) :
    ((s.writeStep c).buf s.active).read k = (acquiredCodes h ++ [c])[s.filledCodes h + k]? := by
  have hlen := hs.length
  rw [State.read_writeStep]
  obtain hlt | rfl := Nat.lt_succ_iff_lt_or_eq.1 hk
  · rw [if_neg fun hx => hlt.ne hx.2, hs.current k hlt, List.getElem?_append_left (by omega)]
  · rw [if_pos ⟨rfl, rfl⟩, ← hlen, List.getElem?_concat_length]

theorem State.HoldsAcquired.writeStep {c : Code} (hs : s.HoldsAcquired h)
    (hes : (s.writeStep c).history = es ++ s.history) (hcounts : (s.writeStep c).CountsSince (es ++ h)) :
    (s.writeStep c).HoldsAcquired (es ++ h) := by
  have hlen := hs.length
  obtain ⟨hL, hfill, hactive, rfl⟩ | ⟨hL, hfill, hactive, rfl⟩ := State.writeStep_since hes
  · refine ⟨hcounts, fun k hk => ?_, fun n hn k hk => ?_⟩
    · rw [hfill] at hk
      exact absurd hk (Nat.not_lt_zero k)
    · have hn : n = s.filledCodes h := by
        rw [State.filledCodes, List.singleton_append, readyEvents_fill, State.writeStep_cfg, List.length_cons,
          Nat.succ_mul] at hn
        exact Nat.add_right_cancel hn
      rw [hactive, Buf.other_other, hn]
      exact hs.read_writeStep_active c (by rwa [hL, ← s.writeStep_cfg c])
  · refine ⟨hcounts, fun k hk => ?_, fun n hn k hk => ?_⟩
    · rw [hactive, State.filledCodes, State.writeStep_cfg]
      exact hs.read_writeStep_active c (hfill ▸ hk)
    · rw [State.filledCodes, State.writeStep_cfg] at hn
      rw [State.writeStep_cfg] at hk
      have hn' : n + s.cfg.bufLen = s.filledCodes h := hn
      rw [hactive, State.read_writeStep, if_neg fun hx => s.active.other_ne hx.1, hs.latest n hn' k hk]
      exact (List.getElem?_append_left (by omega)).symm

/-- The buffers go on holding what was acquired over any step but `RESET`, of any agent. -/
theorem exec_keeps_holdsAcquired (hx : exec i s = .next t) (hr : i ≠ .reset) (hes : t.history = es ++ s.history)
    (hcounts : t.CountsSince (es ++ h)) (hs : s.HoldsAcquired h) : t.HoldsAcquired (es ++ h) := by
  obtain ⟨c, -, -, rfl⟩ | hkept := (exec_taken hx).write_or_keeps hr
  · exact hs.writeStep hes hcounts
  · refine ⟨hcounts, ?_, ?_⟩
    · rw [State.filledCodes, hkept.readyEvents_since hes, hkept.acquiredCodes_since hes, hkept.buf, hkept.active, hkept.fill,
        exec_keeps_cfg hx]
      exact hs.current
    · rw [State.filledCodes, hkept.readyEvents_since hes, hkept.acquiredCodes_since hes, hkept.buf, hkept.active,
        exec_keeps_cfg hx]
      exact hs.latest

/-! ### The records handed over since a reset, against the stream processed (R145, R146) -/

/-- A step that filters no block adds nothing to the stream (R144). -/
theorem append_streamStep (hquiet : i = .compute → t.phase ≠ .emit) : u ++ streamStep i s t = u := by
  rw [streamStep, if_neg fun hn => hquiet hn.1 hn.2, List.append_nil]

/-- How many records of the block in `EMIT` are still to be handed over. -/
def State.recordsLeft (s : State) : Nat := if s.phase = .emit then s.cfg.bufLen - s.e else 0

theorem State.recordsLeft_of_ne (hp : s.phase ≠ .emit) : s.recordsLeft = 0 := if_neg hp

theorem State.recordsLeft_of_emit (hp : s.phase = .emit) : s.recordsLeft = s.cfg.bufLen - s.e := if_pos hp

/-- Only `COMPUTE` has records ready and only `EMIT` hands one over (R120). -/
theorem recordsLeft_eq (hx : exec i s = .next t) (hr : i ≠ .reset) (hc : i ≠ .compute) (he : i ≠ .emit) :
    t.recordsLeft = s.recordsLeft := by
  by_cases hp : s.phase = .emit
  · obtain ⟨hphase, -, -, hE⟩ := sequencer_eq_of_ne_stepOfPhase hx hr (by rwa [hp])
    rw [State.recordsLeft_of_emit hp, State.recordsLeft_of_emit (hphase.trans hp), hE, exec_keeps_cfg hx]
  · rw [State.recordsLeft_of_ne hp, State.recordsLeft_of_ne fun ht => hp ((exec_taken hx).emit_of_emit hc ht)]

/-- `u` is the stream processed since a reset and `h` the history since: the records it shows are the values of the stream, each
with what the filter answers for it, up to those still to be handed over. -/
def State.HandsOver (s : State) (h : List Event) (u : List Val) : Prop :=
  recordsOf h = (u.zip (streamFilter s.cfg u).1).take (u.length - s.recordsLeft)

theorem State.HandsOver.length (hs : s.HandsOver h u) : (recordsOf h).length = u.length - s.recordsLeft := by
  rw [hs, List.length_take, List.length_zip, streamFilter_length]
  omega

/-- `COMPUTE` adds the block to the stream, and all its records are still to come. -/
theorem State.HandsOver.filterBlock (hs : s.HandsOver h u) (hp : s.phase = .compute) (r : Bool) (ev : Event)
    (hrecords : recordsOf es = []) :
    ((s.filterBlock r).record ev).HandsOver (es ++ h) (u ++ s.scaledBlock) := by
  have hall : recordsOf h = u.zip (streamFilter s.cfg u).1 := by
    rw [hs, State.recordsLeft_of_ne (by rw [hp]; decide), List.take_of_length_le (by simp)]
  have hleft : ((s.filterBlock r).record ev).recordsLeft = s.scaledBlock.length :=
    (State.recordsLeft_of_emit rfl).trans (State.scaledBlock_length s).symm
  rw [State.HandsOver, recordsOf_append, hrecords, List.append_nil, hall, State.record_cfg, State.filterBlock_cfg,
    streamFilter_append_fst, List.zip_append (streamFilter_length s.cfg u).symm, hleft, List.length_append,
    Nat.add_sub_cancel]
  exact (List.take_left' (by simp)).symm

theorem State.recordsLeft_emitStep (hp : s.phase = .emit) (he : s.e < s.cfg.bufLen) :
    s.emitStep.recordsLeft + 1 = s.recordsLeft := by
  have hphase : s.emitStep.phase = s.advanceEmit.phase := rfl
  rw [State.recordsLeft_of_emit hp]
  obtain ⟨hL, hdone⟩ | ⟨hL, hemit⟩ := s.advanceEmit_phase_cases
  · rw [State.recordsLeft_of_ne fun ht => hdone (by rw [← hphase, ht]; decide)]
    omega
  · have hE : s.emitStep.e = s.e + 1 := rfl
    rw [State.recordsLeft_of_emit (hphase.trans hemit), State.emitStep_cfg, hE]
    omega

/-- R38: record `E` is the value of the stream that is due, with the filter's answer for it. -/
theorem State.FiltersStream.record_of_emit (hf : s.FiltersStream u) (hp : s.phase = .emit) (he : s.e < s.cfg.bufLen) :
    (u.zip (streamFilter s.cfg u).1)[u.length - s.recordsLeft]? = some (s.recordU, s.recordF) := by
  have hle := hf.bufLen_le hp
  have hleft := State.recordsLeft_of_emit hp
  have hidx : u.length - s.cfg.bufLen + s.e = u.length - s.recordsLeft := by omega
  have hlt : u.length - s.recordsLeft < u.length := by omega
  have hltF : u.length - s.recordsLeft < (streamFilter s.cfg u).1.length := by rwa [streamFilter_length]
  have hU : s.recordU = u[u.length - s.recordsLeft] := State.recordU_of_recU (by
    rw [State.recU, hf.outU hp, List.getD_eq_getElem?_getD, List.getElem?_map, List.getElem?_drop, hidx,
      List.getElem?_eq_getElem hlt]
    rfl)
  have hF : s.recordF = (streamFilter s.cfg u).1[u.length - s.recordsLeft] := State.recordF_of_recF (by
    rw [State.recF, hf.outF hp, List.getD_eq_getElem?_getD, List.getElem?_map, List.getElem?_drop, hidx,
      List.getElem?_eq_getElem hltF]
    rfl)
  rw [hU, hF, List.getElem?_zip_eq_some]
  exact ⟨List.getElem?_eq_getElem hlt, List.getElem?_eq_getElem hltF⟩

/-- `EMIT` hands over the next record of the stream. -/
theorem State.HandsOver.emitStep (hs : s.HandsOver h u) (hf : s.FiltersStream u) (hp : s.phase = .emit)
    (he : s.e < s.cfg.bufLen) (hrecords : recordsOf es = [(s.recordU, s.recordF)]) :
    s.emitStep.HandsOver (es ++ h) u := by
  have hle := hf.bufLen_le hp
  have hleft := State.recordsLeft_of_emit hp
  have hnext := State.recordsLeft_emitStep hp he
  have hcount : u.length - s.emitStep.recordsLeft = u.length - s.recordsLeft + 1 := by omega
  rw [State.HandsOver, recordsOf_append, hrecords, hs, State.emitStep_cfg, hcount, List.take_add_one,
    hf.record_of_emit hp he]
  rfl

/-- The records go on following the stream over any step but `RESET`, of any agent. -/
theorem exec_keeps_handsOver (hx : exec i s = .next t) (hr : i ≠ .reset) (hes : t.history = es ++ s.history)
    (hf : s.FiltersStream u) (hs : s.HandsOver h u) : t.HandsOver (es ++ h) (u ++ streamStep i s t) := by
  by_cases he : i = .emit
  · subst he
    obtain ⟨-, hp, hE, rfl⟩ := exec_emit_next.1 hx
    obtain rfl : es = [.emit s.recordU s.recordF] := List.append_cancel_right hes.symm
    rw [append_streamStep (i := .emit) nofun]
    exact hs.emitStep (es := [.emit s.recordU s.recordF]) hf hp hE rfl
  have hrecords : recordsOf es = [] := by
    have hhist := (exec_taken hx).recordsOf_history he
    rwa [hes, recordsOf_append, List.append_right_eq_self] at hhist
  by_cases hc : i = .compute
  · subst hc
    obtain ⟨-, hp, rfl⟩ := exec_compute_next.1 hx
    obtain ⟨k, -, -, hraise⟩ | ⟨r, hfilter, -⟩ := s.computeStep_cases
    · have hemit : s.computeStep.phase ≠ .emit := by rw [hraise]; simp [hp]
      rw [append_streamStep fun _ => hemit, State.HandsOver, recordsOf_append, hrecords, List.append_nil, hraise]
      exact hs
    · rw [hfilter]
      exact hs.filterBlock hp r .compute hrecords
  · rw [append_streamStep fun hi => absurd hi hc, State.HandsOver, recordsOf_append, hrecords, List.append_nil,
      exec_keeps_cfg hx, recordsLeft_eq hx hr hc he]
    exact hs

/-! ### Under the deadline (R245, R246) -/

/-- The buffer being filled is free: its condition is not pending, and the sequencer is not reading it. -/
structure State.ActiveFree (s : State) : Prop where
  pend : s.pend s.active = false
  reading : ¬ s.reading s.active

theorem FreshlyReset.activeFree (hs : FreshlyReset s) : s.ActiveFree := by
  obtain ⟨-, -, -, hpend, -, -, -, -, hphase, -⟩ := hs.fields
  exact ⟨hpend _, State.not_reading_of_phase (by rw [hphase]; decide)⟩

/-- R246 (a): no store meets a code that has not been read. -/
theorem State.ActiveFree.not_corrupts (hs : s.ActiveFree) : ¬ Corrupts s := by
  rintro (hpend | ⟨hphase, hcur, -⟩)
  · cases hs.pend.symm.trans hpend
  · exact hs.reading ⟨.inl hphase, hcur⟩

theorem State.reading.processing (hs : s.reading x) : s.processing x := by
  obtain ⟨hphase | hphase, hcur⟩ := hs
  exacts [⟨.inl hphase, hcur⟩, ⟨.inr (.inl hphase), hcur⟩]

/-- The buffers swap at a fill, where the deadline frees the other one (R245). -/
theorem exec_keeps_activeFree (hx : exec i s = .next t) (hr : i ≠ .reset) (hd : DeadlineMet s i) (hs : s.ActiveFree) :
    t.ActiveFree := by
  obtain ⟨c, rfl, hc, rfl⟩ | hkept := (exec_taken hx).write_or_keeps hr
  · have hsame := (s.writeStep_same c).1
    obtain ⟨hL, -, -, hactive, -⟩ | ⟨hL, -, -, hactive, -⟩ := s.writeStep_swap c
    · obtain ⟨hpend, hprocessing⟩ := hd (fills_write_iff.2 ⟨hc, hL⟩)
      constructor
      · rw [hactive, State.pend_writeStep, if_neg fun hx => s.active.other_ne hx.1, hpend]
      · rw [hactive, State.reading_congr hsame]
        exact fun hreading => hprocessing hreading.processing
    · constructor
      · rw [hactive, State.pend_writeStep_of_not_fill c hL, hs.pend]
      · rw [hactive, State.reading_congr hsame]
        exact hs.reading
  · constructor
    · rw [hkept.active]
      exact hkept.pend_eq_false hs.pend
    · rw [hkept.active]
      intro hreading
      obtain hs' | ⟨hpend, -⟩ := (exec_taken hx).reading_cases hr hreading
      · exact hs.reading hs'
      · cases hs.pend.symm.trans hpend

/-- Where `u` is the stream processed since a reset and `h` the history since: the stream is the scaled acquired codes so far,
and either every fill is in it, or every fill but the latest, which is on its way. -/
structure State.KeepsUp (s : State) (h : List Event) (u : List Val) : Prop where
  stream : ∃ rest, (acquiredCodes h).map (scaleFn s.cfg) = u ++ rest
  latest :
    (u.length = s.filledCodes h ∧ s.pend s.active.other = false ∧ ¬ s.reading s.active.other) ∨
    (u.length + s.cfg.bufLen = s.filledCodes h ∧
      s.Conveys s.active.other fun k => (acquiredCodes h)[u.length + k]?)

/-- Everything a run under the deadline keeps since a reset, of a state, the history `h` since and the processed stream `u`. -/
structure State.OnTime (s : State) (h : List Event) (u : List Val) : Prop where
  inv : s.Inv
  free : s.ActiveFree
  holds : s.HoldsAcquired h
  filters : s.FiltersStream u
  handsOver : s.HandsOver h u
  keepsUp : s.KeepsUp h u

theorem FreshlyReset.keepsUp (hs : FreshlyReset s) : s.KeepsUp [] [] := by
  obtain ⟨-, -, -, hpend, -, -, -, -, hphase, -⟩ := hs.fields
  exact ⟨⟨[], rfl⟩, .inl ⟨s.filledCodes_nil.symm, hpend _, State.not_reading_of_phase (by rw [hphase]; decide)⟩⟩

/-- What is acquired later leaves the stream where it was in what is acquired. -/
theorem State.KeepsUp.stream_append (hs : s.KeepsUp h u) (es : List Event) :
    ∃ rest, (acquiredCodes (es ++ h)).map (scaleFn s.cfg) = u ++ rest := by
  obtain ⟨rest, hrest⟩ := hs.stream
  exact ⟨_, by rw [acquiredCodes_append, List.map_append, hrest, List.append_assoc]⟩

/-- A fill puts its block on its way: the deadline has the one before it in the stream. -/
theorem State.OnTime.keepsUp_fill {c : Code} (hs : s.OnTime h u) (hL : s.fill + 1 = s.cfg.bufLen)
    (hactive : (s.writeStep c).active = s.active.other) (hpend : s.pend s.active.other = false)
    (hprocessing : ¬ s.processing s.active.other)
    (hholds : (s.writeStep c).HoldsAcquired (.write c (readyOf s.active) :: h)) :
    (s.writeStep c).KeepsUp (.write c (readyOf s.active) :: h) u := by
  obtain ⟨hlen, -⟩ | ⟨-, hm⟩ := hs.keepsUp.latest
  · have hlen' : u.length + (s.writeStep c).cfg.bufLen = (s.writeStep c).filledCodes (.write c (readyOf s.active) :: h) := by
      rw [State.filledCodes, readyEvents_fill, State.writeStep_cfg, List.length_cons, Nat.succ_mul, hlen]
      rfl
    refine ⟨?_, .inr ⟨hlen', .pending ?_ ?_ (hholds.latest _ hlen')⟩⟩
    · rw [State.writeStep_cfg]
      exact hs.keepsUp.stream_append [.write c (readyOf s.active)]
    · simp [hactive, State.pend_writeStep, hL]
    · rw [hactive, Buf.other_other, State.reading_congr (s.writeStep_same c).1]
      exact hs.free.reading
  · obtain hx | hx := hm.pend_or_reading
    · cases hpend.symm.trans hx
    · exact absurd hx.processing hprocessing

/-- Where no buffer fills and no block is filtered, the stream stays as it is and the block stays on its way. -/
theorem State.OnTime.keepsUp_of_no_fill (hs : s.OnTime h u) (hx : exec i s = .next t) (hr : i ≠ .reset)
    (hactive : t.active = s.active) (hpend : s.pend s.active.other = false → t.pend s.active.other = false)
    (hready : readyEvents (es ++ h) = readyEvents h) (hquiet : i = .compute → t.phase ≠ .emit) :
    t.KeepsUp (es ++ h) u := by
  have hcfg := exec_keeps_cfg hx
  have hfilled : t.filledCodes (es ++ h) = s.filledCodes h := by rw [State.filledCodes, State.filledCodes, hready, hcfg]
  have hemit : s.phase = .compute → t.phase ≠ .emit := fun hp ht => by
    by_cases hi : i = .compute
    · exact hquiet hi ht
    · cases hp.symm.trans ((exec_taken hx).emit_of_emit hi ht)
  constructor
  · rw [hcfg]
    exact hs.keepsUp.stream_append es
  · rw [hfilled, hactive, hcfg]
    obtain ⟨hlen, hnot, hreading⟩ | ⟨hlen, hm⟩ := hs.keepsUp.latest
    · refine .inl ⟨hlen, hpend hnot, fun ht => ?_⟩
      obtain hs' | ⟨hx', -⟩ := (exec_taken hx).reading_cases hr ht
      · exact hreading hs'
      · cases hnot.symm.trans hx'
    · have hm' := exec_keeps_conveys hx hr hs.inv (fun _ => hs.free.not_corrupts)
        (fun hp _ => ⟨s.active.other_ne, hemit hp⟩) hm
      refine .inr ⟨hlen, hm'.congr (exec_keeps_inv hx hs.inv).j_lt fun k hk => ?_⟩
      have hlength := hs.holds.length
      rw [hcfg] at hk
      rw [acquiredCodes_append, List.getElem?_append_left (by omega)]

/-- The block `COMPUTE` finds captured, taken from a sequence of codes that has it at index `n`. -/
theorem State.cap_eq_take_drop {a : List Code} {n : Nat} (hlen : s.cap.length = s.cfg.bufLen)
    (hn : n + s.cfg.bufLen ≤ a.length) (hcap : ∀ k, k < s.cfg.bufLen → s.cap[k]? = some a[n + k]?) :
    s.cap = ((a.drop n).take s.cfg.bufLen).map some := by
  refine List.ext_getElem? fun k => ?_
  by_cases hk : k < s.cfg.bufLen
  · have hlt : n + k < a.length := by omega
    rw [hcap k hk, List.getElem?_map, List.getElem?_take_of_lt hk, List.getElem?_drop, List.getElem?_eq_getElem hlt]
    rfl
  · rw [List.getElem?_eq_none (by omega), List.getElem?_eq_none (by simp; omega)]

/-- `COMPUTE` takes the block that was on its way into the stream (R142). -/
theorem State.OnTime.keepsUp_filterBlock (hs : s.OnTime h u) (hp : s.phase = .compute) (r : Bool) (ev : Event)
    (hacquired : acquiredCodes (es ++ h) = acquiredCodes h) (hready : readyEvents (es ++ h) = readyEvents h) :
    ((s.filterBlock r).record ev).KeepsUp (es ++ h) (u ++ s.scaledBlock) := by
  have hcur : s.cur = s.active.other := Buf.eq_other_of_ne fun hc => hs.free.reading ⟨.inr hp, hc⟩
  obtain ⟨-, -, hreading⟩ | ⟨hlen, hm⟩ := hs.keepsUp.latest
  · exact absurd ⟨.inr hp, hcur⟩ hreading
  · obtain ⟨hpend, hcap⟩ := hm.captured_of_compute hp hcur
    refine ⟨?_, .inl ⟨?_, by simpa using hpend, State.not_reading_of_phase (by simp)⟩⟩
    · have hle : u.length + s.cfg.bufLen ≤ (acquiredCodes h).length := by rw [hlen, hs.holds.length]; omega
      have hblock := State.scaledBlock_of_cap (State.cap_eq_take_drop hs.inv.cap_len hle hcap)
        (by rw [List.length_take, List.length_drop]; omega)
      obtain ⟨rest, hrest⟩ := hs.keepsUp.stream
      rw [List.map_take, List.map_drop, hrest, List.drop_left] at hblock
      rw [hacquired, hblock, State.record_cfg, State.filterBlock_cfg, hrest]
      exact ⟨rest.drop s.cfg.bufLen, by rw [List.append_assoc, List.take_append_drop]⟩
    · rw [List.length_append, State.scaledBlock_length, State.filledCodes, hready]
      exact hlen

/-- A step that leads from `COMPUTE` to `EMIT` has filtered the block. -/
theorem exec_compute_of_emit (hx : exec .compute s = .next t) (ht : t.phase = .emit) :
    s.phase = .compute ∧ ∃ r, t = (s.filterBlock r).record .compute := by
  obtain ⟨-, hp, rfl⟩ := exec_compute_next.1 hx
  obtain ⟨k, -, -, hraise⟩ | ⟨r, hfilter, -⟩ := s.computeStep_cases
  · rw [hraise] at ht
    cases hp.symm.trans ht
  · exact ⟨hp, r, hfilter⟩

/-- Under the deadline the stream goes on keeping up over any step but `RESET`, of any agent. -/
theorem State.OnTime.exec_keepsUp (hs : s.OnTime h u) (hx : exec i s = .next t) (hr : i ≠ .reset) (hd : DeadlineMet s i)
    (hes : t.history = es ++ s.history) (hholds : t.HoldsAcquired (es ++ h)) :
    t.KeepsUp (es ++ h) (u ++ streamStep i s t) := by
  obtain ⟨c, rfl, hc, rfl⟩ | hkept := (exec_taken hx).write_or_keeps hr
  · rw [append_streamStep (i := .write c) nofun]
    obtain ⟨hL, -, hactive, rfl⟩ | ⟨hL, -, hactive, rfl⟩ := State.writeStep_since hes
    · obtain ⟨hpend, hprocessing⟩ := hd (fills_write_iff.2 ⟨hc, hL⟩)
      exact hs.keepsUp_fill hL hactive hpend hprocessing hholds
    · exact hs.keepsUp_of_no_fill hx hr hactive (by rw [State.pend_writeStep_of_not_fill c hL]; exact id)
        (readyEvents_store c h) nofun
  · have hready := hkept.readyEvents_since hes h
    by_cases hfilters : i = .compute ∧ t.phase = .emit
    · rw [streamStep, if_pos hfilters]
      obtain ⟨rfl, ht⟩ := hfilters
      obtain ⟨hp, r, rfl⟩ := exec_compute_of_emit hx ht
      exact hs.keepsUp_filterBlock hp r .compute (hkept.acquiredCodes_since hes h) hready
    · have hquiet : i = .compute → t.phase ≠ .emit := fun hi ht => hfilters ⟨hi, ht⟩
      rw [append_streamStep hquiet]
      exact hs.keepsUp_of_no_fill hx hr hkept.active hkept.pend_eq_false hready hquiet

/-! ### A run under the deadline -/

/-- R39 of a state right after a reset, of whatever state it was taken in. -/
theorem FreshlyReset.inv (hs : FreshlyReset s) (hv : s.cfg.valid = true) : s.Inv := by
  obtain ⟨s0, hx⟩ | hs := hs
  · obtain ⟨-, rfl⟩ := exec_reset_next.1 hx
    exact { State.resetOf_inv hv with }
  · exact hs ▸ State.resetOf_inv hv

theorem FreshlyReset.onTime (hs : FreshlyReset s) (hv : s.cfg.valid = true) : s.OnTime [] [] where
  inv := hs.inv hv
  free := hs.activeFree
  holds := hs.holdsAcquired (hs.inv hv).bufLen_pos
  filters := hs.filtersStream
  handsOver := List.take_nil.symm
  keepsUp := hs.keepsUp

/-- Under the deadline everything is kept over any step but `RESET`, of any agent. -/
theorem exec_keeps_onTime (hx : exec i s = .next t) (hr : i ≠ .reset) (hd : DeadlineMet s i) (hs : s.OnTime h u) :
    ∃ es, t.history = es ++ s.history ∧ t.OnTime (es ++ h) (u ++ streamStep i s t) := by
  obtain ⟨es, hes, hcounts⟩ := exec_keeps_countsSince hx hr hs.holds.counts
  have hholds := exec_keeps_holdsAcquired hx hr hes hcounts hs.holds
  exact ⟨es, hes,
    { inv := exec_keeps_inv hx hs.inv
      free := exec_keeps_activeFree hx hr hd hs.free
      holds := hholds
      filters := exec_keeps_filtersStream hx hr hs.filters
      handsOver := exec_keeps_handsOver hx hr hes hs.filters hs.handsOver
      keepsUp := hs.exec_keepsUp hx hr hd hes hholds }⟩

/-- R246: the end of every run under the deadline from a reset is on time. -/
theorem RunsTo.onTime {is : List Instr} (hs : FreshlyReset s) (hv : s.cfg.valid = true)
    (hrun : RunsTo (fun u i => NotReset u i ∧ DeadlineMet u i) is s t) :
    ∃ h u, t.history = h ++ s.history ∧ t.OnTime h u := by
  obtain ⟨h, hhist, u, honTime⟩ := hrun.keeps_since (Q := fun s h => ∃ u, s.OnTime h u)
    (fun ⟨hr, hd⟩ hx ⟨u, hq⟩ => by
      obtain ⟨es, hes, hq'⟩ := exec_keeps_onTime hx hr hd hq
      exact ⟨es, hes, _, hq'⟩) ⟨[], hs.onTime hv⟩
  exact ⟨h, u, hhist, h.append_nil ▸ honTime⟩

/-! ### What the records are (R202) -/

/-- Later values do not change what the filter sees of the stream up to `n`. -/
theorem streamAt_append {n : Nat} (hn : n < u.length) (rest : List Val) (k : Nat) :
    streamAt (u ++ rest) n k = streamAt u n k := by
  rw [streamAt, streamAt, List.getD_append _ _ _ _ (Nat.lt_of_le_of_lt (Nat.sub_le n k) hn)]

/-- With the default numerics a record is the value of the stream and the direct-form sum at it. -/
theorem State.HandsOver.record {n : Nat} {r : Val × Val} (hs : s.HandsOver h u) (hx : s.cfg.numerics = .exact)
    (hc : s.cfg.coeff.length = s.cfg.taps) (hr : (recordsOf h)[n]? = some r) :
    n < u.length ∧ r = (u.getD n 0, ∑ k ∈ Finset.range s.cfg.taps, s.cfg.coeff.getD k 0 * streamAt u n k) := by
  rw [hs, List.getElem?_take, Option.ite_none_right_eq_some, List.getElem?_zip_eq_some] at hr
  obtain ⟨-, hu, hf⟩ := hr
  have hn : n < u.length := (List.getElem?_eq_some_iff.1 hu).1
  rw [streamFilter_exact hx hc hn, Option.some.injEq] at hf
  exact ⟨hn, Prod.ext (by rw [List.getD_eq_getElem?_getD, hu, Option.getD_some]) hf.symm⟩

theorem State.pend_eq_false_of_irq (hirq : s.irq = false) (x : Buf) : s.pend x = false :=
  Bool.eq_false_of_not_eq_true fun hx => by cases hirq.symm.trans (State.irq_of_pend hx)

/-- R251: at a quiescent point the stream has every fill. -/
theorem State.KeepsUp.length_of_quiescent (hs : s.KeepsUp h u) (hq : s.quiescentPoint) : u.length = s.filledCodes h := by
  obtain ⟨hphase, hirq⟩ := hq
  obtain ⟨hlen, -⟩ | ⟨-, hm⟩ := hs.latest
  · exact hlen
  · obtain hpend | hreading := hm.pend_or_reading
    · cases (State.pend_eq_false_of_irq hirq _).symm.trans hpend
    · exact absurd hreading (State.not_reading_of_phase (by rw [hphase]; decide))

/-! ### The formatter's rounding (R205) -/

/-- R205 in whole numbers: `m d` is within half of `d` from `n`, and where it is half of `d` away `m` is even. -/
theorem roundHalfEven_spec (n : Nat) {d : Nat} (hd : 0 < d) :
    (2 * n ≤ 2 * (roundHalfEven n d * d) + d ∧ 2 * (roundHalfEven n d * d) ≤ 2 * n + d) ∧
    (2 * n = 2 * (roundHalfEven n d * d) + d ∨ 2 * (roundHalfEven n d * d) = 2 * n + d → roundHalfEven n d % 2 = 0) := by
  have hn : n / d * d + n % d = n := Nat.div_add_mod' n d
  have hlt : n % d < d := Nat.mod_lt n hd
  have hsucc : (n / d + 1) * d = n / d * d + d := Nat.succ_mul _ _
  simp only [roundHalfEven]
  split_ifs <;> omega

/-- How far `m` is from a quotient, as a fraction over twice its denominator. -/
theorem sub_div_eq (m n : Nat) {d : Nat} (hd : 0 < d) :
    (m : Val) - n / d = (2 * (m * d) - 2 * n) / (2 * d) := by
  have hd' : (d : Val) ≠ 0 := Nat.cast_ne_zero.2 hd.ne'
  field_simp

theorem abs_sub_div_le_half_iff (m n : Nat) {d : Nat} (hd : 0 < d) :
    |(m : Val) - n / d| ≤ 1 / 2 ↔ 2 * n ≤ 2 * (m * d) + d ∧ 2 * (m * d) ≤ 2 * n + d := by
  have hd' : (0 : Val) < 2 * d := mul_pos two_pos (Nat.cast_pos.2 hd)
  rw [sub_div_eq m n hd, abs_le, le_div_iff₀ hd', div_le_iff₀ hd']
  qify
  exact and_congr ⟨fun h => by linarith, fun h => by linarith⟩ ⟨fun h => by linarith, fun h => by linarith⟩

theorem abs_sub_div_eq_half_iff (m n : Nat) {d : Nat} (hd : 0 < d) :
    |(m : Val) - n / d| = 1 / 2 ↔ 2 * n = 2 * (m * d) + d ∨ 2 * (m * d) = 2 * n + d := by
  have hd' : (2 * d : Val) ≠ 0 := (mul_pos two_pos (Nat.cast_pos.2 hd)).ne'
  rw [sub_div_eq m n hd, abs_eq (by positivity), div_eq_iff hd', div_eq_iff hd', or_comm]
  qify
  exact or_congr ⟨fun h => by linarith, fun h => by linarith⟩ ⟨fun h => by linarith, fun h => by linarith⟩

/-- A magnitude as the quotient `microUnits` rounds (R205). -/
theorem abs_mul_million (v : Val) : |v| * 1000000 = ((v.num.natAbs * 1000000 : Nat) : Val) / v.den := by
  rw [Rat.abs_def, Rat.divInt_eq_div, Int.cast_natCast, Int.cast_natCast, div_mul_eq_mul_div, Nat.cast_mul,
    Nat.cast_ofNat]

end Sys2Proof.Machine

/-! ### The statements -/

namespace Sys2Proof.Proofs

open Sys2Proof.Machine

/-- Settles O51: the block the buffer held when it was pending is on its way all along the run, and `COMPUTE` finds it. -/
theorem withoutOverrunTheFillIsCaptured : Obligations.WithoutOverrunTheFillIsCaptured := by
  intro s t x is hs hpend hreading hrun hphase hcur
  have hm : t.Conveys x (s.buf x).read := hrun.conveys hs (.pending hpend hreading fun _ _ => rfl)
  exact hrun.keeps_cfg ▸ (hm.captured_of_compute hphase hcur).2

/-- Settles O53: the records follow the processed stream, which the deadline has keep up with the acquired one. -/
theorem underTheDeadlineTheRecordsAreTheAcquiredStream : Obligations.UnderTheDeadlineTheRecordsAreTheAcquiredStream := by
  intro s t is hs hv hx hrun
  obtain ⟨-, -, hcoeff, -⟩ := (Config.valid_iff s.cfg).1 hv
  obtain ⟨h, u, hhist, honTime⟩ := hrun.onTime hs hv
  refine ⟨h, hhist, ?_⟩
  rw [← hrun.keeps_cfg] at hx hcoeff ⊢
  intro c acquired
  obtain ⟨rest, hstream⟩ : ∃ rest, acquired = u ++ rest := honTime.keepsUp.stream
  have hlen := honTime.handsOver.length
  rw [hstream]
  refine ⟨?_, fun n r hr => ?_, fun hq => ?_⟩
  · rw [hlen, List.length_append]
    omega
  · obtain ⟨hn, hrecord⟩ := honTime.handsOver.record hx hcoeff hr
    simpa only [List.getD_append _ _ _ _ hn, streamAt_append hn] using hrecord
  · rw [hlen, State.recordsLeft_of_ne (by rw [hq.1]; decide), honTime.keepsUp.length_of_quiescent hq]
    rfl

/-- Settles O59: the quotient that is rounded is the scaled magnitude, and the bounds on it are those of whole numbers. -/
theorem textRoundsHalfToEven : Obligations.TextRoundsHalfToEven := by
  intro v
  rw [abs_mul_million, abs_sub_div_le_half_iff _ _ v.pos, abs_sub_div_eq_half_iff _ _ v.pos]
  exact roundHalfEven_spec _ v.pos

end Sys2Proof.Proofs
end

section
/-! PROOFS. The family `60_exceptions.md`. First the layer these proofs need: what a raising step leaves where nothing was raised
before (R37, R77), what a captured code is, and the first one above `MAX_CODE` (R211). Then the statements O22 and O24. -/

namespace Sys2Proof.Machine

variable {s : State} {codes : List Code} {k : Nat} {c : Code}

/-! ### The steps that raise (R211, R213) -/

/-- R213: what `CAPTURE` leaves of a state without faults whose element at `J` is unwritten. -/
theorem exec_capture_of_unwritten (hf : s.faults = []) (hp : s.phase = .capture) (hj : s.j < s.cfg.bufLen)
    (hread : (s.buf s.cur).read s.j = none) : exec .capture s =
      .next { s with faults := [.unwrittenRead s.cur s.j], history := .capture :: s.history } := by
  have hstep : s.captureStep = (s.raise (.unwrittenRead s.cur s.j)).record .capture := by rw [State.captureStep, hread]
  rw [State.raise_of_faults_nil hf] at hstep
  exact exec_capture_next.2 ⟨hf, hp, hj, hstep.symm⟩

/-- R211: what `COMPUTE` leaves of a state without faults under the policy `fault`. -/
theorem exec_compute_of_fault (hf : s.faults = []) (hp : s.phase = .compute) (hk : s.firstAboveMax = some k)
    (hpolicy : s.cfg.rangePolicy = .fault) : exec .compute s =
      .next { s with faults := [.codeRange k (s.capCode k)], history := .compute :: s.history } := by
  have hstep : s.computeStep = (s.raise (.codeRange k (s.capCode k))).record .compute := by
    rw [State.computeStep, hk, hpolicy]
  rw [State.raise_of_faults_nil hf] at hstep
  exact exec_compute_next.2 ⟨hf, hp, hstep.symm⟩

/-- R212: under the policy `compute` a code above `MAX_CODE` sets `RANGE`, and the block is filtered all the same. -/
theorem exec_compute_of_above (hf : s.faults = []) (hp : s.phase = .compute) (hk : s.firstAboveMax = some k)
    (hpolicy : s.cfg.rangePolicy = .compute) : exec .compute s = .next ((s.filterBlock true).record .compute) :=
  exec_compute_next.2 ⟨hf, hp, by rw [State.computeStep, hk, hpolicy]⟩

/-! ### The first captured code above `MAX_CODE` (R142, R211) -/

theorem State.capCode_of_cap (hcap : s.cap = codes.map some) (hc : codes[k]? = some c) : s.capCode k = c := by
  simp [State.capCode, hcap, hc]

theorem State.firstAboveMax_eq_some (hcap : s.cap = codes.map some) (hlen : codes.length = s.cfg.bufLen)
    (hc : codes[k]? = some c) (habove : s.cfg.maxCode < c.toNat)
    (hbelow : ∀ m d, m < k → codes[m]? = some d → d.toNat ≤ s.cfg.maxCode) : s.firstAboveMax = some k := by
  have hk : k < codes.length := (List.getElem?_eq_some_iff.1 hc).1
  refine List.find?_range_eq_some.2 ⟨?_, List.mem_range.2 (hlen ▸ hk), fun m hm => ?_⟩
  · simpa [State.capCode_of_cap hcap hc] using habove
  · have hd : codes[m]? = some codes[m] := List.getElem?_eq_getElem (hm.trans hk)
    simpa [State.capCode_of_cap hcap hd] using hbelow m _ hm hd

end Sys2Proof.Machine

/-! ### The statements -/

namespace Sys2Proof.Proofs

open Sys2Proof.Machine

/-- Settles O22: the read raises, and a state with a fault in `FAULTS` takes no step. -/
theorem captureOfAnUnwrittenElementFaults : Obligations.CaptureOfAnUnwrittenElementFaults :=
  fun _ hf hp hj hread => ⟨exec_capture_of_unwritten hf hp hj hread, step_faulted (List.cons_ne_nil _ _)⟩

/-- Settles O24: the range check finds the code at `k`, and the policy decides what it comes to. -/
theorem codeAboveMaxFaultsUnderThatPolicy : Obligations.CodeAboveMaxFaultsUnderThatPolicy := by
  intro s codes k c hf hp hcap hlen hc habove hbelow
  have hfirst : s.firstAboveMax = some k := State.firstAboveMax_eq_some hcap hlen hc habove hbelow
  refine ⟨fun hpolicy => ?_, fun hpolicy => ⟨_, exec_compute_of_above hf hp hfirst hpolicy, hf, rfl, ?_⟩⟩
  · rw [exec_compute_of_fault hf hp hfirst hpolicy, State.capCode_of_cap hcap hc]
  · rw [State.record_outU, State.filterBlock_outU, State.scaledBlock_of_cap hcap hlen]

end Sys2Proof.Proofs
end

section
/-! PROOFS. The family `70_reset_and_hazards.md`. First the layer these proofs need: what every step of a finite run
keeps (R10), `OVR` along a run under the deadline (R27, R246), the way to the check of the one pending condition and from its
block to the end (R122, R123), and how far the sequencer is from the end of its invocation (R120, R124, R250). Then the
statements O50, O9, O54 and O56. -/

namespace Sys2Proof.Machine

variable {s t : State} {i : Instr} {x : Buf}

/-! ### Finite runs (R10) -/

/-- What every step of a finite run keeps holds at its end. -/
theorem RunsTo.keeps {P : State → Instr → Prop} {Q : State → Prop}
    (hstep : ∀ {u v : State} {i : Instr}, P u i → exec i u = .next v → Q u → Q v) :
    ∀ {is : List Instr} {s t : State}, RunsTo P is s t → Q s → Q t
  | [], _, _, rfl, hq => hq
  | _ :: _, _, _, ⟨hp, _, hx, hrun⟩, hq => hrun.keeps hstep (hstep hp hx hq)

/-! ### `OVR` under the deadline (R27, R246) -/

/-- R27: `OVR` stays 0 over a step that meets no unread code. -/
theorem exec_keeps_ovr_eq_false (hx : exec i s = .next t) (hr : i ≠ .reset) (hno : ¬ Corrupts s) (hs : s.ovr = false) :
    t.ovr = false := by
  obtain hkeep | ⟨-, -, hcorrupts⟩ | ⟨hclear, -⟩ := (exec_taken hx).ovr_cases hr
  exacts [hkeep.trans hs, absurd hcorrupts hno, hclear]

/-- R246: in a run from a reset under the deadline the buffer being filled is free, and `OVR` is 0. -/
theorem RunsTo.activeFree_and_ovr_eq_false {is : List Instr} (hs : FreshlyReset s)
    (hrun : RunsTo (fun u i => NotReset u i ∧ DeadlineMet u i) is s t) : t.ActiveFree ∧ t.ovr = false := by
  obtain ⟨-, -, -, -, -, hovr, -⟩ := hs.fields
  exact hrun.keeps (Q := fun u => u.ActiveFree ∧ u.ovr = false) (fun ⟨hr, hd⟩ hx ⟨hfree, hovr⟩ =>
    ⟨exec_keeps_activeFree hx hr hd hfree, exec_keeps_ovr_eq_false hx hr hfree.not_corrupts hovr⟩) ⟨hs.activeFree, hovr⟩

/-- Of two conditions pending, one is the active buffer's. -/
theorem State.ActiveFree.not_both_pend (hs : s.ActiveFree) : ¬ (s.pendA = true ∧ s.pendB = true) := by
  rintro ⟨hA, hB⟩
  have hpend : ∀ x, s.pend x = true := fun x => by cases x; exacts [hA, hB]
  cases hs.pend.symm.trans (hpend s.active)

/-! ### A one-buffer invocation (R122, R123) -/

/-- The steps of an invocation of which `x` alone is pending, up to the check of `x`. -/
def stepsBeforeCheck : Buf → List Instr
  | .A => [.start]
  | .B => [.start, .checkA]

/-- The steps of such an invocation after the last record of `x`. -/
def stepsAfterBlock : Buf → List Instr
  | .A => [.checkB]
  | .B => []

theorem processSteps_length (len : Nat) : (processSteps len).length = 2 * len + 1 := by
  simp only [processSteps, List.length_append, List.length_replicate, List.length_singleton]
  omega

theorem SameServed.refl (s : State) : SameServed s s := ⟨rfl, rfl, rfl, fun _ => rfl, fun _ => rfl, rfl, rfl⟩

theorem SameServed.goTo (s : State) (p : Phase) (ev : Event) : SameServed s ((s.goTo p).record ev) := by
  constructor <;> simp [SameSticky]

/-- The check of a condition that is not pending goes on. -/
theorem exec_checkOf_of_not_pend (hf : s.faults = []) (hp : s.phase = phaseOfCheck x) (hx : s.pend x = false) :
    exec (checkOf x) s = .next ((s.goTo (phaseAfterLast x)).record (checkEvent x)) :=
  exec_checkOf_next.2 ⟨hf, hp, by rw [State.check_of_not_pend hx]⟩

/-- R218: with neither condition pending `IRQ` is not asserted. -/
theorem State.irq_eq_false (hx : s.pend x = false) (hother : s.pend x.other = false) : s.irq = false := by
  cases x
  exacts [Bool.or_eq_false_iff.2 ⟨hx, hother⟩, Bool.or_eq_false_iff.2 ⟨hother, hx⟩]

/-- R121, R122: with `x` alone pending the sequencer comes from `IDLE` to the check of `x`. -/
theorem runsTo_check (hf : s.faults = []) (hp : s.phase = .idle) (hx : s.pend x = true) (hother : s.pend x.other = false) :
    ∃ u, RunsTo NotReset (stepsBeforeCheck x) s u ∧ SameServed s u ∧ u.phase = phaseOfCheck x ∧ u.hist = s.hist ∧
      recordsOf u.history = recordsOf s.history := by
  have hstart := exec_start_next.2 ⟨hf, hp, s.irq_of_pend hx, rfl⟩
  have hsame := SameServed.goTo s .checkA .start
  cases x with
  | A => exact ⟨_, .single nofun hstart, hsame, rfl, rfl, rfl⟩
  | B =>
    have hcheckA := exec_checkOf_of_not_pend (x := .A) (hsame.faults.trans hf) rfl ((hsame.pend .A).trans hother)
    exact ⟨_, ⟨nofun, _, hstart, .single nofun hcheckA⟩, hsame.trans (.goTo _ _ _), rfl, rfl, rfl⟩

/-- R123: with the other condition not pending the invocation ends after the last record of `x`. -/
theorem runsTo_idle (hf : s.faults = []) (hp : s.phase = phaseAfterLast x) (hother : s.pend x.other = false) :
    ∃ t, RunsTo NotReset (stepsAfterBlock x) s t ∧ SameServed s t ∧ t.phase = .idle ∧ t.hist = s.hist ∧
      recordsOf t.history = recordsOf s.history := by
  cases x with
  | A => exact ⟨_, .single nofun (exec_checkOf_of_not_pend (x := .B) hf hp hother), .goTo _ _ _, rfl, rfl, rfl⟩
  | B => exact ⟨s, rfl, .refl s, hp, rfl, rfl⟩

/-! ### How far the sequencer is from the end of its invocation (R120, R124) -/

/-- More than the sequencer steps from a state in an invocation to its end: those to the next check of A, which is in the next
invocation, and where this invocation's own check of A is still due, the checks and the blocks of both buffers. -/
def State.stepsToEnd (s : State) : Nat :=
  if s.phase = .checkA then 4 * s.cfg.bufLen + 5 else s.stepsToCheck .A

theorem State.stepsToEnd_congr (h : SameSequencer s t) (hcfg : t.cfg = s.cfg) : t.stepsToEnd = s.stepsToEnd := by
  have hphase : t.phase = s.phase := h.1
  rw [State.stepsToEnd, State.stepsToEnd, hphase, hcfg, State.stepsToCheck_congr h hcfg]

/-- The invocation's check of A leaves at most a block of A, and from the check of B on a block of B. -/
theorem stepsToEnd_check_lt (hp : s.phase = .checkA) : (s.check .A .checkB).stepsToEnd < s.stepsToEnd := by
  rw [State.stepsToEnd.eq_def s, if_pos hp]
  obtain ⟨-, hcheck⟩ | ⟨-, hcheck⟩ := s.check_cases .A .checkB
  · rw [hcheck, State.stepsToEnd, if_neg (by simp), State.stepsToCheck_capture (s.acknowledge_phase .A),
      State.acknowledge_cfg, State.acknowledge_j, State.acknowledge_cur]
    simp only [phaseAfterLast, stepsBetweenBlocks]
    omega
  · rw [hcheck, State.stepsToEnd, if_neg (by simp), State.stepsToCheck_between (s.goTo_phase _) (by decide), State.goTo_cfg]
    simp only [stepsBetweenBlocks]
    omega

/-- R120: only `START` leads to the check of A, and only that check leaves it. -/
theorem phase_ne_checkA_of_sequencerStep (h : exec i s = .next t) (hi : i ∈ sequencerSteps) (hf : t.faults = [])
    (hstart : i ≠ .start) (hcheck : i ≠ .checkA) : s.phase ≠ .checkA ∧ t.phase ≠ .checkA := by
  obtain rfl | rfl | rfl | rfl | rfl | rfl := mem_sequencerSteps_iff.1 hi
  · exact absurd rfl hstart
  · exact absurd rfl hcheck
  · obtain ⟨-, hp, rfl⟩ := exec_checkB_next.1 h
    rw [hp, State.record_phase, State.check_phase]
    split <;> decide
  · obtain ⟨hp, -, c, rfl⟩ := exec_capture_running h hf
    rw [hp, State.record_phase, State.storeCapture_phase]
    split <;> decide
  · obtain ⟨hp, r, rfl⟩ := exec_compute_running h hf
    rw [hp, State.record_phase, State.filterBlock_phase]
    decide
  · obtain ⟨-, hp, -, rfl⟩ := exec_emit_next.1 h
    rw [hp, State.emitStep, State.record_phase, State.advanceEmit_phase]
    cases s.cur <;> split <;> decide

/-- R124: every sequencer step that raises nothing, but the `START` of an invocation, brings its end nearer. -/
theorem stepsToEnd_lt_of_sequencerStep (h : exec i s = .next t) (hi : i ∈ sequencerSteps) (hf : t.faults = [])
    (hstart : i ≠ .start) : t.stepsToEnd < s.stepsToEnd := by
  by_cases hcheck : i = .checkA
  · subst hcheck
    obtain ⟨-, hp, rfl⟩ := exec_checkA_next.1 h
    exact stepsToEnd_check_lt hp
  · obtain ⟨hs, ht⟩ := phase_ne_checkA_of_sequencerStep h hi hf hstart hcheck
    rw [State.stepsToEnd, State.stepsToEnd, if_neg hs, if_neg ht]
    exact stepsToCheck_lt_of_sequencerStep h hi hf hcheck

/-! ### An invocation that never ends (R250) -/

/-- A step after which the block is busy is no `RESET`. -/
theorem ne_reset_of_busy (h : exec i s = .next t) (ht : t.phase ≠ .idle) : i ≠ .reset := by
  rintro rfl
  obtain ⟨-, rfl⟩ := exec_reset_next.1 h
  exact ht rfl

/-- A step taken where the block is busy is no `START`. -/
theorem ne_start_of_busy (h : exec i s = .next t) (hs : s.phase ≠ .idle) : i ≠ .start := by
  rintro rfl
  obtain ⟨-, hp, -⟩ := exec_start_next.1 h
  exact hs hp

/-- In an invocation no step of any agent takes the sequencer further from its end. -/
theorem stepsToEnd_le_of_busy (h : exec i s = .next t) (hf : t.faults = []) (hs : s.phase ≠ .idle) (ht : t.phase ≠ .idle) :
    t.stepsToEnd ≤ s.stepsToEnd := by
  by_cases hi : i ∈ sequencerSteps
  · exact (stepsToEnd_lt_of_sequencerStep h hi hf (ne_start_of_busy h hs)).le
  · exact (State.stepsToEnd_congr ((exec_taken h).sequencer_eq (ne_reset_of_busy h ht) hi) (exec_keeps_cfg h)).le

section FairRun

variable {run : Nat → State} {steps : Nat → Instr} {n : Nat}

/-- R124, R250: while the block is busy the sequencer never stands still, so it does not stay busy for ever. -/
theorem InfiniteRun.not_busy_forever (h : InfiniteRun IsStep run steps) (h0 : (run 0).Inv) (hfair : WeaklyFair run steps)
    (hsink : SinkKeepsAccepting run steps) : ¬ ∀ k, n ≤ k → (run k).phase ≠ .idle := by
  intro hbusy
  have hfaults : ∀ k, (run k).faults = [] := h.faults_eq_nil fun _ _ => id
  have hanti : Antitone fun k => (run (n + k)).stepsToEnd := antitone_nat_of_succ_le fun k =>
    stepsToEnd_le_of_busy (h _).2 (hfaults _) (hbusy _ (by omega)) (hbusy _ (by omega))
  obtain ⟨a, ha⟩ := WellFoundedLT.antitone_chain_condition hanti
  obtain ⟨m, hm, hmoved⟩ := h.exists_sequencerStep (n := n + a) (fun _ _ => id) h0 hfair hsink fun k hk hp =>
    absurd hp (hbusy k (by omega))
  obtain ⟨d, rfl⟩ : ∃ d, m = n + (a + d) := ⟨m - (n + a), by omega⟩
  have hstep := (h (n + (a + d))).2
  have hlt := stepsToEnd_lt_of_sequencerStep hstep (hmoved.resolve_left (ne_reset_of_busy hstep (hbusy _ (by omega))))
    (hfaults _) (ne_start_of_busy hstep (hbusy _ (by omega)))
  exact hlt.ne ((ha (a + d + 1) (by omega)).symm.trans (ha (a + d) (by omega)))

end FairRun

end Sys2Proof.Machine

/-! ### The statements -/

namespace Sys2Proof.Proofs

open Sys2Proof.Machine

/-- Settles O50: the deadline keeps the buffer being filled free, so that no store meets an unread code. -/
theorem theDeadlineRulesOutOverrun : Obligations.TheDeadlineRulesOutOverrun := by
  intro s t is hs _ hrun
  obtain ⟨hfree, hovr⟩ := hrun.activeFree_and_ovr_eq_false hs
  exact ⟨hfree.not_corrupts, hovr, hfree.not_both_pend⟩

/-- Settles O9: `RESET` gives the state of a new instance, but for `FAULTS`, `REFUSED` and the model's own fields. -/
theorem resetGivesEveryFieldItsValue : Obligations.ResetGivesEveryFieldItsValue := by
  intro s hf
  refine ⟨_, exec_reset_next.2 ⟨hf, rfl⟩, fun x k => ?_, ?_⟩
  · cases x <;> rfl
  · simp [State.resetFields_eq, State.resetOf, SameRest]

/-- Settles O54: up to the check of `x`, from it to the last record, and from there to the end. -/
theorem anInvocationServesItsBufferIn2LPlus4Steps : Obligations.AnInvocationServesItsBufferIn2LPlus4Steps := by
  intro s x codes hs hf hp hx hother hlen hread hmax process is V
  have his : is = stepsBeforeCheck x ++ checkOf x :: processSteps s.cfg.bufLen ++ stepsAfterBlock x := by
    cases x
    exacts [rfl, (List.append_nil _).symm]
  obtain ⟨u, hbefore, hsame, hphase, hhist, hrecords⟩ := runsTo_check hf hp hx hother
  have hcfg := hsame.cfg
  obtain ⟨v, hserve, hserved, hphase', hhist', hrecords'⟩ := (hbefore.inv hs).serve_runsTo (codes := codes)
    (hsame.faults.trans hf) hphase ((hsame.pend x).trans hx) (hcfg ▸ hlen) (by rw [hcfg, hsame.buf]; exact hread) (hcfg ▸ hmax)
  rw [hcfg] at hserve
  rw [hcfg, hhist] at hhist' hrecords'
  have hfaults : v.faults = [] := by rw [hserved.faults, State.acknowledge_faults, hsame.faults, hf]
  have hpend : v.pend x = false := by rw [hserved.pend, State.pend_acknowledge, if_pos rfl]
  have hpendOther : v.pend x.other = false := by
    rw [hserved.pend, State.pend_acknowledge, if_neg x.other_ne, hsame.pend, hother]
  obtain ⟨t, hafter, hsame', hidle, hhist'', hrecords''⟩ := runsTo_idle hfaults hphase' hpendOther
  obtain ⟨hovr, hrange⟩ := hsame.sticky
  obtain ⟨hovr', hrange'⟩ := hserved.sticky
  obtain ⟨hovr'', hrange''⟩ := hsame'.sticky
  refine ⟨?_, t, his ▸ (hbefore.append hserve).append hafter, ⟨hidle, ?_⟩, hsame'.cur.trans hserved.cur, ?_, ?_, ?_, ?_⟩
  · rw [his]
    cases x <;> simp [stepsBeforeCheck, stepsAfterBlock, processSteps_length]
  · exact State.irq_eq_false ((hsame'.pend x).trans hpend) ((hsame'.pend x.other).trans hpendOther)
  · rw [hrecords'', hrecords', hrecords]
  · rw [hhist'', hhist']
  · rw [hovr'', hovr', State.acknowledge_ovr, hovr]
  · rw [hrange'', hrange', State.acknowledge_range, hrange]

/-- Settles O56: an invocation that never ends would keep the block busy for ever. -/
theorem everyInvocationEnds : Obligations.EveryInvocationEnds := by
  intro run steps h0 h hfair hsink n
  by_contra hnone
  exact h.not_busy_forever h0 hfair hsink fun k hk hp => hnone ⟨k, hk, hp⟩

end Sys2Proof.Proofs
end
